-- ==== Sys2Proof/Word.lean ====
section
/-! DEFINITION. The words of the block: bytes, 16-bit and 32-bit unsigned values (spec/00 R11, R12; spec/20 R50). -/

namespace Sys2Proof

/-- A byte: 8 bits (spec/20 R50). -/
abbrev Byte := BitVec 8

/-- A 16-bit value: ports, the control word, the checksum, the placeholders (spec/00 R7). -/
abbrev Half := BitVec 16

/-- A 32-bit value: sequence and acknowledgment numbers, draws, `RES` (spec/00 R7). Its `+` is the spec's `+_32` (spec/00 R12). -/
abbrev Word := BitVec 32

end Sys2Proof
end

