-- ==== Sys2Proof/Syntax.lean ====
section
/-! DEFINITION. The two encodings of the block (spec/30 R92 the command word, spec/30 R87 the control word of a built
segment) and the instructions they stand for: one constructor of `Instr` per row of spec/opcode_table.json. -/

namespace Sys2Proof

/-- A flag identifier: exactly these six values (spec/30 R84, R228 of spec/70). -/
inductive FlagId where
  | fin
  | syn
  | rst
  | psh
  | ack
  | urg
deriving DecidableEq, Repr

/-- An encoded word. -/
inductive Encoded where
  /-- the command port: the 8-bit command word and its two data operands (spec/30 R92) -/
  | cmd (word : Byte) (arg0 arg1 : Half)
  /-- the control word of the segment kind a send step builds (spec/30 R87) -/
  | ctrl (word : Half)
deriving DecidableEq, Repr

/-- The instructions: sixteen commands (spec/30 R93) and the four segment kinds a send step builds (spec/30 R87). -/
inductive Instr where
  /-- `CREATE srcPort, destPort` (spec/40 R110) -/
  | create (srcPort destPort : Half)
  /-- `SETFLAG f` (spec/40 R111) -/
  | setFlag (f : FlagId)
  /-- `CLEARFLAG f` (spec/40 R112) -/
  | clearFlag (f : FlagId)
  /-- `CHECKFLAG f` (spec/40 R113) -/
  | checkFlag (f : FlagId)
  /-- `GETOFF` (spec/40 R114) -/
  | getOff
  /-- `GETRSV` (spec/40 R115) -/
  | getRsv
  /-- `PACK` (spec/40 R116) -/
  | pack
  /-- `UNPACK` (spec/40 R117) -/
  | unpack
  /-- `REPORT` (spec/40 R118) -/
  | report
  /-- `CHECKSUM` (spec/41 R130) -/
  | checksum
  /-- `STAMP` (spec/41 R132) -/
  | stamp
  /-- `VERIFY` (spec/41 R133) -/
  | verify
  /-- `OPEN.I localPort, peerPort` (spec/42 R140) -/
  | openI (localPort peerPort : Half)
  /-- `OPEN.R localPort, peerPort` (spec/42 R140) -/
  | openR (localPort peerPort : Half)
  /-- `CLOSE.I localPort, peerPort` (spec/43 R160) -/
  | closeI (localPort peerPort : Half)
  /-- `CLOSE.R localPort, peerPort` (spec/43 R160) -/
  | closeR (localPort peerPort : Half)
  /-- `seg.SYN`: build and send an open request (spec/30 R87; log entry 10) -/
  | segSyn
  /-- `seg.SYNACK`: build and send an open grant (spec/30 R87; log entry 10) -/
  | segSynAck
  /-- `seg.ACK`: build and send an acknowledgment (spec/30 R87; log entry 10) -/
  | segAck
  /-- `seg.FIN`: build and send a close request (spec/30 R87; log entry 10) -/
  | segFin
deriving DecidableEq, Repr

end Sys2Proof
end

