-- ==== Sys2Proof/WellFormed.lean ====
section
/-! DEFINITION. Which encoded words are legal, check by check as spec/30 R94, R95 and R87 list them. Every TERM of `Instr`
is well-formed by its type (a flag operand is one of six names, a role is part of the constructor), so well-formedness is a
question about encoded words; the decoder, written from the operation map, is to accept exactly these. -/

namespace Sys2Proof

/-- `opc`, bits 7:4 of a command word (spec/30 R92). -/
def cmdOpc (w : Byte) : Nat := w.toNat / 16

/-- `opd`, bits 3:0 of a command word (spec/30 R92). -/
def cmdOpd (w : Byte) : Nat := w.toNat % 16

/-- Check (a) of spec/30 R95: `opc` is not 14 or 15. -/
def opcodeAssigned (w : Byte) : Bool := !(cmdOpc w == 14 || cmdOpc w == 15)

/-- Check (b) of spec/30 R95: `opc` 1 to 3 needs `opd` 0 to 5. -/
def flagOperandLegal (w : Byte) : Bool :=
  !((1 ≤ cmdOpc w && cmdOpc w ≤ 3) && 6 ≤ cmdOpd w)

/-- Check (c) of spec/30 R95: `opc` 12 or 13 needs `opd` 0 or 1. -/
def roleOperandLegal (w : Byte) : Bool :=
  !((cmdOpc w == 12 || cmdOpc w == 13) && 2 ≤ cmdOpd w)

/-- Check (d) of spec/30 R95: any other `opc` needs `opd` 0. -/
def zeroOperandLegal (w : Byte) : Bool :=
  (1 ≤ cmdOpc w && cmdOpc w ≤ 3) || cmdOpc w == 12 || cmdOpc w == 13 || cmdOpd w == 0

/-- The control words a send step builds (spec/30 R87). -/
def builtControlWord (w : Half) : Bool :=
  w == 0x6002#16 || w == 0x6012#16 || w == 0x6010#16 || w == 0x6001#16

/-- An encoded word is legal when every check that applies to it passes. -/
def Encoded.wellFormed : Encoded → Bool
  | .cmd w _ _ => opcodeAssigned w && flagOperandLegal w && roleOperandLegal w && zeroOperandLegal w
  | .ctrl w => builtControlWord w

end Sys2Proof
end

