-- ==== Sys2Proof/Decode.lean ====
section
/-! DEFINITION. The decoder (total, rejecting by name) and after it the encoder, both written from the operation map of
spec/30 R93 and the built segment kinds of spec/30 R87. -/

namespace Sys2Proof

/-- Why a word stands for no instruction (spec/30 R95 (a) to (d), R87). -/
inductive Reject where
  /-- `opc` 14 or 15 (spec/30 R95 (a)) -/
  | reservedOpcode
  /-- a flag operand 6 to 15 (spec/30 R95 (b)) -/
  | notAFlagId
  /-- a role operand 2 to 15 (spec/30 R95 (c)) -/
  | notARole
  /-- a non-zero operand where it must be 0 (spec/30 R95 (d)) -/
  | operandNotZero
  /-- a control word no send step builds (spec/30 R87) -/
  | notABuiltKind
deriving DecidableEq, Repr

/-- What the decoder answers. -/
inductive Decoded where
  | ok (i : Instr)
  | rejected (r : Reject)
deriving DecidableEq, Repr

/-- The flag a 4-bit operand names (spec/30 R84). -/
def flagOfOperand : Nat → Option FlagId
  | 0 => some .fin
  | 1 => some .syn
  | 2 => some .rst
  | 3 => some .psh
  | 4 => some .ack
  | 5 => some .urg
  | _ => none

/-- An operation whose operand is a flag identifier (spec/30 R94). -/
def withFlag (opd : Nat) (k : FlagId → Instr) : Decoded :=
  match flagOfOperand opd with
  | some f => .ok (k f)
  | none => .rejected .notAFlagId

/-- An operation whose operand must be 0 (spec/30 R94). -/
def withZero (opd : Nat) (i : Instr) : Decoded :=
  if opd = 0 then .ok i else .rejected .operandNotZero

/-- An operation whose operand is a role: 0 Initiator, 1 Responder (spec/30 R94). -/
def withRole (opd : Nat) (initiator responder : Instr) : Decoded :=
  match opd with
  | 0 => .ok initiator
  | 1 => .ok responder
  | _ => .rejected .notARole

/-- The operation map (spec/30 R93). -/
def decodeCommand (w : Byte) (arg0 arg1 : Half) : Decoded :=
  let opd := cmdOpd w
  match cmdOpc w with
  | 0 => withZero opd (.create arg0 arg1)
  | 1 => withFlag opd .setFlag
  | 2 => withFlag opd .clearFlag
  | 3 => withFlag opd .checkFlag
  | 4 => withZero opd .getOff
  | 5 => withZero opd .getRsv
  | 6 => withZero opd .pack
  | 7 => withZero opd .unpack
  | 8 => withZero opd .report
  | 9 => withZero opd .checksum
  | 10 => withZero opd .stamp
  | 11 => withZero opd .verify
  | 12 => withRole opd (.openI arg0 arg1) (.openR arg0 arg1)
  | 13 => withRole opd (.closeI arg0 arg1) (.closeR arg0 arg1)
  | _ => .rejected .reservedOpcode

/-- The built segment kinds, told apart by the whole control word a send step builds (spec/30 R87). -/
def decodeControl (w : Half) : Decoded :=
  if w = 0x6002#16 then .ok .segSyn
  else if w = 0x6012#16 then .ok .segSynAck
  else if w = 0x6010#16 then .ok .segAck
  else if w = 0x6001#16 then .ok .segFin
  else .rejected .notABuiltKind

/-- The decoder, total on encoded words. -/
def decode : Encoded → Decoded
  | .cmd w a0 a1 => decodeCommand w a0 a1
  | .ctrl w => decodeControl w

/-- Where a word of spec/opcode_table.json lies when its bits are numbered as the table numbers them: a row of 16 bits is a
control word (format SEG_CTRL); any other is a command word in bits 7:0, `arg0` in bits 23:8, `arg1` in bits 39:24
(format CMD gives its data operands no bits; log entry 22). -/
def encodedOfTableWord (nbits w : Nat) : Encoded :=
  if nbits = 16 then .ctrl (BitVec.ofNat 16 w)
  else .cmd (BitVec.ofNat 8 w) (BitVec.ofNat 16 (w / 2 ^ 8)) (BitVec.ofNat 16 (w / 2 ^ 24))

/-- The instruction the decoder reads from a word of spec/opcode_table.json. -/
def decodeTableWord (nbits w : Nat) : Option Instr :=
  match decode (encodedOfTableWord nbits w) with
  | .ok i => some i
  | .rejected _ => none

/-- The bit position of a flag identifier (spec/30 R84; spec/92 D23). -/
def FlagId.pos : FlagId → Nat
  | .fin => 0
  | .syn => 1
  | .rst => 2
  | .psh => 3
  | .ack => 4
  | .urg => 5

/-- A command word from its two halves (spec/30 R92). -/
def commandWord (opc opd : Nat) : Byte := BitVec.ofNat 8 (opc * 16 + opd)

/-- The encoder: the word of each row of spec/30 R93 and R87. Operands a command ignores are sent as 0 (spec/30 R94). -/
def encode : Instr → Encoded
  | .create a b => .cmd (commandWord 0 0) a b
  | .setFlag f => .cmd (commandWord 1 f.pos) 0#16 0#16
  | .clearFlag f => .cmd (commandWord 2 f.pos) 0#16 0#16
  | .checkFlag f => .cmd (commandWord 3 f.pos) 0#16 0#16
  | .getOff => .cmd (commandWord 4 0) 0#16 0#16
  | .getRsv => .cmd (commandWord 5 0) 0#16 0#16
  | .pack => .cmd (commandWord 6 0) 0#16 0#16
  | .unpack => .cmd (commandWord 7 0) 0#16 0#16
  | .report => .cmd (commandWord 8 0) 0#16 0#16
  | .checksum => .cmd (commandWord 9 0) 0#16 0#16
  | .stamp => .cmd (commandWord 10 0) 0#16 0#16
  | .verify => .cmd (commandWord 11 0) 0#16 0#16
  | .openI a b => .cmd (commandWord 12 0) a b
  | .openR a b => .cmd (commandWord 12 1) a b
  | .closeI a b => .cmd (commandWord 13 0) a b
  | .closeR a b => .cmd (commandWord 13 1) a b
  | .segSyn => .ctrl 0x6002#16
  | .segSynAck => .ctrl 0x6012#16
  | .segAck => .ctrl 0x6010#16
  | .segFin => .ctrl 0x6001#16

end Sys2Proof
end

