-- ==== Sys2Proof/Config.lean ====
section
/-! DEFINITION. What an implementation fixes (the parameters of spec/00 R9, R10) and the FREE VALUES of the environment
(spec/93 U1 to U4): constants without a body, so that no proof can lean on what they are. -/

namespace Sys2Proof

/-- The parameter `WIRE_ORDER` (spec/20 R53; spec/92 D1). -/
inductive WireOrder where
  | le
  | be
deriving DecidableEq, Repr, Inhabited

/-- The parameters the source leaves open and its one unaudited literal (spec/00 R9, R10; spec/93 U15, U16). The decided
values are `Machine.decided` (Machine/Params.lean); `exec` and `step` use those, the operations take any. -/
structure Params where
  /-- `WIRE_ORDER` -/
  wireOrder : WireOrder
  /-- `STRICT_FLAGS` -/
  strictFlags : Bool
  /-- `RND_REDUCED_INSIDE` -/
  rndReducedInside : Bool
  /-- `CLEAR_BUG` -/
  clearBug : Bool
  /-- `ISN_MOD` -/
  isnMod : Word
deriving DecidableEq, Repr

/-- The environment's choice of the outcome of one `ChanSend` (spec/20 R59, R73; spec/93 U2). `entered` is how many of
the bytes, from the first on, enter the queue to the peer. DESIGN CHOICE (log entries 4, 16): the spec gives the count no
bound ("the source also allows for more"), so it is any natural number; `ERR.observed` shows its low 32 bits. -/
inductive SendChoice where
  /-- outcome (a): 24, all bytes enter the queue -/
  | full
  /-- outcome (b): the count `c` (a `c` of 24 is outcome (a)) -/
  | count (c entered : Nat)
  /-- outcome (c): `error` -/
  | error (entered : Nat)
deriving DecidableEq, Repr, Inhabited

/-- The environment's choice of the outcome of one `ChanRecv(24)` that is not blocked (spec/20 R60; spec/93 U3). -/
inductive RecvChoice where
  /-- as many of the waiting bytes as there are, at most 24 -/
  | regular
  /-- `n` of the waiting bytes, or all if there are fewer: a short return on a `down` direction, or more than 24
  where that many wait (spec/92 D26) -/
  | count (n : Nat)
  /-- `error` on a `down` direction, `dropped` of the waiting bytes being lost -/
  | error (dropped : Nat)
deriving DecidableEq, Repr, Inhabited

/-- FREE VALUE: the `k`-th free answer of the random source (spec/00 R14; spec/93 U1; log entry 3). DESIGN CHOICE: it is one
sequence, so two instances that take the same `k` take the same value, where the spec leaves them unrelated. -/
opaque Config.freeDraw : Nat → Word

/-- FREE VALUE: byte `offset` of `BUF` after a failed receive (spec/20 R72; spec/93 U4; log entry 6). -/
opaque Config.freeByte : Nat → Nat → Byte

/-- FREE VALUE: what a send on a `down` direction does where no choice is scripted (spec/20 R59, R73; spec/93 U2;
log entry 4). -/
opaque Config.freeSend : Nat → SendChoice

/-- FREE VALUE: what a receive on a `down` direction with fewer than 24 bytes returns where no choice is scripted
(spec/20 R60; spec/93 U3; log entry 5). -/
opaque Config.freeRecv : Nat → RecvChoice

end Sys2Proof
end

