-- ==== Sys2Proof/Machine/State.lean ====
section
/-! DEFINITION. The state: every register of spec/10 R20 under its own name, and beside them, in `env`, what the block's
environment holds (spec/10 R34 says that part is not the block's; log entry 2). Plain data throughout. -/

namespace Sys2Proof.Machine

/-- The nine fields of a segment, in wire order (spec/10 R21; spec/30 R81). -/
structure Segment where
  sport : Half
  dport : Half
  seq : Word
  ack : Word
  ctrl : Half
  win : Half
  csum : Half
  urg : Half
  opt : Word
deriving DecidableEq, Repr

/-- The segment with every bit 0 (spec/10 R37). -/
def Segment.zero : Segment := ⟨0#16, 0#16, 0#32, 0#32, 0#16, 0#16, 0#16, 0#16, 0#32⟩

/-- `BUF`: (offset, byte) cells in canonical form: offsets strictly rising and below 24, no byte 0, since an offset not
listed reads as its reset value 0 (spec/10 R23, R37; spec/20 R50; log entry 19). -/
abbrev Memory := List Host.Cell

/-- The exchange in `OP` (spec/10 R20, R27). -/
inductive ExOp where
  | openEx
  | closeEx
deriving DecidableEq, Repr

/-- The role in `ROLE` (spec/10 R20; spec/60 R197). -/
inductive Role where
  | initiator
  | responder
deriving DecidableEq, Repr

/-- The four values of `STEP` (spec/10 R26). -/
inductive StepIx where
  | s0
  | s1
  | s2
  | s3
deriving DecidableEq, Repr

/-- `STATUS.state` (spec/10 R28). -/
inductive RunState where
  | idle
  | busy
  | done
  | failed
deriving DecidableEq, Repr

/-- `STATUS` (spec/10 R28). -/
structure Status where
  /-- `STATUS.state` -/
  run : RunState
  /-- `STATUS.cmd_err` -/
  cmdErr : Bool
deriving DecidableEq, Repr

/-- `ERR.kind` (spec/60 R180). -/
inductive ErrKind where
  | none
  | shortIo
  | checksumMismatch
  | sequenceMismatch
  | acknowledgmentMismatch
  | flagMismatch
deriving DecidableEq, Repr

/-- `ERR.dir` (spec/10 R29): which channel call failed. -/
inductive IoDir where
  | send
  | recv
deriving DecidableEq, Repr

/-- `ERR` (spec/10 R29). A field that a kind does not use is 0, which for `flag` is the flag identifier 0
(log entry 17). -/
structure ErrReg where
  kind : ErrKind
  op : ExOp
  role : Role
  stepIx : StepIx
  flag : FlagId
  dir : IoDir
  chanErr : Bool
  disc : Bool
  unexpected : Bool
  expected : Word
  observed : Word
deriving DecidableEq, Repr

/-- `ERR` all zero: no failure recorded (spec/10 R29, R37). -/
def ErrReg.zero : ErrReg :=
  ⟨.none, .openEx, .initiator, .s0, .fin, .send, false, false, false, 0#32, 0#32⟩

/-- The direction of a trace record (spec/00 R14; spec/60 R200). -/
inductive TraceDir where
  | tx
  | rx
  | rpt
deriving DecidableEq, Repr

/-- The fields of a segment report (spec/40 R118). -/
structure Report where
  sport : Half
  dport : Half
  seq : Word
  ack : Word
  offset : BitVec 4
  reserved : BitVec 6
  flags : BitVec 6
  names : List String
  csum : Half
  win : Half
  urg : Half
  opt : Word
deriving DecidableEq, Repr

/-- One trace record (spec/60 R200). -/
structure TraceRecord where
  dir : TraceDir
  op : ExOp
  role : Role
  stepIx : StepIx
  report : Report
deriving DecidableEq, Repr

/-- What the outside world does to the machine between two steps of the block (spec/00 R17; log entry 8). -/
inductive Input where
  /-- the host issues a command (spec/30 R92) -/
  | command (word : Byte) (arg0 arg1 : Half)
  /-- the host writes `SEG` (spec/10 R22, R39) -/
  | writeSeg (g : Segment)
  /-- the host writes one byte of `BUF` (spec/10 R23, R39; log entry 14) -/
  | writeBuf (offset : Fin 24) (b : Byte)
  /-- the reset input is asserted and released (spec/10 R37; spec/70 R220) -/
  | reset
  /-- bytes of the peer enter the queue to this instance (spec/20 R58) -/
  | arrive (bytes : List Byte)
  /-- the peer takes bytes from the queue to it (spec/20 R58) -/
  | collect (n : Nat)
  /-- the direction from the peer goes `down` (spec/20 R58) -/
  | rxDown
  /-- the direction to the peer goes `down` (spec/20 R58) -/
  | txDown
  /-- the direction to the peer takes no bytes from here on: a send blocks (spec/20 R59; spec/70 R225; log entry 15) -/
  | txStall
  /-- the direction to the peer takes bytes again (log entry 15) -/
  | txResume
  /-- nothing happens outside: the block takes one step of its own -/
  | advance
deriving DecidableEq, Repr

/-- What the environment holds: none of it is state of the block (spec/10 R34; log entry 2). -/
structure Env where
  /-- the events still to come, the next one first (log entry 8) -/
  inputs : List Input
  /-- the answers the random source gives to the coming draws (spec/00 R14; log entry 3) -/
  draws : List Word
  /-- Q(peer to self), the oldest byte first (spec/20 R58) -/
  rxq : List Byte
  /-- `down` of the direction from the peer (spec/20 R58) -/
  rxDown : Bool
  /-- Q(self to peer), the oldest byte first (spec/20 R58) -/
  txq : List Byte
  /-- `down` of the direction to the peer (spec/20 R58) -/
  txDown : Bool
  /-- the direction to the peer takes no bytes for now, so that a send blocks (spec/70 R225; log entry 15) -/
  txStalled : Bool
  /-- the environment's choices for the coming receives (spec/20 R60; log entry 5) -/
  recvChoices : List RecvChoice
  /-- the environment's choices for the coming sends (spec/20 R59; log entry 4) -/
  sendChoices : List SendChoice
  /-- the records given to the trace sink, the oldest first (spec/60 R200) -/
  trace : List TraceRecord
  /-- the model's own counter of free values taken (log entry 6) -/
  free : Nat
deriving DecidableEq, Repr

/-- The environment when the model starts: nothing pending, nothing in flight (log entry 7). -/
def Env.initial : Env := ⟨[], [], [], false, [], false, false, [], [], [], 0⟩

/-- The machine: the registers of spec/10 R20, and the environment. -/
structure State where
  /-- `SEG` (spec/10 R21) -/
  seg : Segment
  /-- `BUF` (spec/10 R23) -/
  buf : Memory
  /-- `LOCAL_SEQ` (spec/10 R24) -/
  localSeq : Word
  /-- `PEER_SEQ` (spec/10 R25) -/
  peerSeq : Word
  /-- `STEP` (spec/10 R26) -/
  stepIx : StepIx
  /-- `OP` (spec/10 R27) -/
  op : ExOp
  /-- `ROLE` (spec/10 R27) -/
  role : Role
  /-- `LOCAL_PORT` (spec/10 R27) -/
  localPort : Half
  /-- `PEER_PORT` (spec/10 R27) -/
  peerPort : Half
  /-- `STATUS` (spec/10 R28) -/
  status : Status
  /-- `ERR` (spec/10 R29) -/
  err : ErrReg
  /-- `RES` (spec/10 R30) -/
  res : Word
  /-- the environment, not of the block -/
  env : Env
deriving DecidableEq, Repr

/-- The machine right after reset (spec/10 R37; spec/70 R220, R221): every register 0, idle. -/
def State.reset : State where
  seg := Segment.zero
  buf := []
  localSeq := 0#32
  peerSeq := 0#32
  stepIx := .s0
  op := .openEx
  role := .initiator
  localPort := 0#16
  peerPort := 0#16
  status := ⟨.idle, false⟩
  err := ErrReg.zero
  res := 0#32
  env := Env.initial

/-- Why the machine stops with a fault. -/
inductive Fault where
  /-- The instance is `BUSY` in a step that no step rule describes (`OP = OPEN`, `STEP = 3`, which spec/10 R26 calls not
  reachable). Raised by `step` alone. Safe: the model stops where the spec gives no step (log entry 12). -/
  | noStepRule
deriving DecidableEq, Repr

/-- Why the machine has no meaning for an instruction. -/
inductive Refusal where
  /-- No meaning is modelled for the instruction of this mnemonic: raised by a refused arm of `exec` alone, and no arm is
  one. Safe. -/
  | notModelled (mnemonic : String)
  /-- A segment kind is to be built and sent where no send step builds it (spec/30 R97 (c): a host cannot issue a bare
  send). Raised by the meanings of `seg.SYN`, `seg.SYNACK`, `seg.ACK`, `seg.FIN`, never by `step`. Safe: the model stops
  where the spec gives no effect (log entry 10). -/
  | notAtBuildingStep
deriving DecidableEq, Repr

/-- The outcome of a step of this machine. -/
abbrev Outcome := Host.Outcome State Fault Refusal

end Sys2Proof.Machine
end

