-- ==== Sys2Proof/Machine/Params.lean ====
section
/-! DEFINITION. The decided values of the parameters (spec/00 R9, R10; spec/92 D1, D5, D9, D17). -/

namespace Sys2Proof.Machine

/-- The decided parameters: little-endian, presence-only flag checks, the block reduces the draw, the clear-flag defect is
not reproduced, `ISN_MOD = 0xFFFFFFF0` (spec/00 R9, R10). -/
def decided : Params where
  wireOrder := .le
  strictFlags := false
  rndReducedInside := true
  clearBug := false
  isnMod := 0xFFFFFFF0#32

end Sys2Proof.Machine
end

