-- ==== Sys2Proof/Machine/Ops.lean ====
section
/-! DEFINITION. The named operations over `BUF`, the environment's answers and the status, error and result registers:
each is written once here and called by the meanings and the step rules. -/

namespace Sys2Proof.Machine

/-! ### `BUF`, byte by byte (spec/10 R23; spec/20 R50 to R54) -/

/-- The byte at an offset: the listed one, else the reset value 0 (spec/10 R37). -/
def Memory.read : Memory → Nat → Byte
  | [], _ => 0#8
  | (k, b) :: m, a => if k = a then b else Memory.read m a

/-- Write one byte, keeping the canonical form. -/
def Memory.write : Memory → Nat → Byte → Memory
  | [], a, v => if v = 0#8 then [] else [(a, v)]
  | (k, b) :: m, a, v =>
    if a < k then (if v = 0#8 then (k, b) :: m else (a, v) :: (k, b) :: m)
    else if a = k then (if v = 0#8 then m else (a, v) :: m)
    else (k, b) :: Memory.write m a v

/-- Canonical from offset `lo` on: offsets rise strictly from `lo`, all below 24, and no byte is 0. -/
def Memory.wfFrom : Nat → Memory → Bool
  | _, [] => true
  | lo, (k, b) :: m => decide (lo ≤ k) && decide (k < 24) && decide (b ≠ 0#8) && Memory.wfFrom (k + 1) m

/-- The canonical form of `BUF` (log entry 19). -/
def Memory.wf (m : Memory) : Bool := Memory.wfFrom 0 m

/-- The 24 bytes, offset 0 first (spec/20 R52). -/
def Memory.bytes (m : Memory) : List Byte := (List.range 24).map (Memory.read m)

/-- The memory whose bytes from offset `i` on are the listed ones. -/
def Memory.load : Nat → List Byte → Memory
  | _, [] => []
  | i, b :: bs => if b = 0#8 then Memory.load (i + 1) bs else (i, b) :: Memory.load (i + 1) bs

/-- The memory that holds the listed bytes from offset 0 on. -/
def Memory.ofBytes (bs : List Byte) : Memory := Memory.load 0 bs

/-- Which power of 256 the byte at offset `k` of an `n`-byte field has (spec/20 R53, R54). -/
def byteWeight (o : WireOrder) (n k : Nat) : Nat :=
  match o with
  | .le => k
  | .be => n - 1 - k

/-- `MemRead(addr, n)` (spec/20 R54). -/
def memRead (o : WireOrder) (m : Memory) (addr n : Nat) : Nat :=
  ((List.range n).map fun k => 256 ^ byteWeight o n k * (Memory.read m (addr + k)).toNat).sum

/-- `MemWrite(addr, n, v)` (spec/20 R54). -/
def memWrite (o : WireOrder) (m : Memory) (addr n v : Nat) : Memory :=
  (List.range n).foldl (fun m k => Memory.write m (addr + k) (BitVec.ofNat 8 (v / 256 ^ byteWeight o n k))) m

/-! ### The command port (spec/30 R95; spec/60 R194) -/

/-- Refuse a command: `STATUS.cmd_err` becomes 1 and nothing else changes (spec/60 R194). -/
def refuseCommand (s : State) : State := { s with status := { s.status with cmdErr := true } }

/-- An accepted command clears `STATUS.cmd_err` (spec/10 R28). -/
def acceptCommand (s : State) : State := { s with status := { s.status with cmdErr := false } }

/-- The command port: while `BUSY` every command is refused, else it is accepted and does what it does (spec/30 R92,
R95 (e); spec/60 R194). -/
def onCommandPort (act : State → State) (s : State) : Outcome :=
  if s.status.run = .busy then .next (refuseCommand s) else .next (act (acceptCommand s))

/-- The result register of a unit operation that returns a value (spec/10 R30). -/
def setRes (v : Word) (s : State) : State := { s with res := v }

/-- A boolean in `RES`: 1 for true, 0 for false (spec/10 R30). -/
def boolWord (b : Bool) : Word := if b then 1#32 else 0#32

/-! ### Entry into an exchange (spec/42 R140; spec/43 R160) -/

/-- The entry shared by the four exchange operations: the role state is created. -/
def enterExchange (op : ExOp) (role : Role) (localPort peerPort : Half) (s : State) : State :=
  { s with
    op := op, role := role, localPort := localPort, peerPort := peerPort
    localSeq := 0#32, peerSeq := 0#32, stepIx := .s0, err := ErrReg.zero
    status := ⟨.busy, false⟩ }

/-! ### Failure entry and the end of an exchange (spec/60 R191; spec/00 R15, R16) -/

/-- The information a `raise` carries (spec/60 R191); what a kind does not give is 0. -/
structure RaiseInfo where
  flag : FlagId := .fin
  dir : IoDir := .send
  chanErr : Bool := false
  disc : Bool := false
  unexpected : Bool := false
  expected : Word := 0#32
  observed : Word := 0#32
deriving DecidableEq, Repr

/-- `raise <Kind>(info)`: `ERR` records the kind, the step and the information, `STATUS.state` becomes `FAILED`, and
nothing else changes (spec/60 R191). No handler, no vector and no return exist (spec/60 R192). -/
def raise (kind : ErrKind) (info : RaiseInfo) (s : State) : State :=
  { s with
    err := ⟨kind, s.op, s.role, s.stepIx, info.flag, info.dir, info.chanErr, info.disc, info.unexpected, info.expected,
      info.observed⟩
    status := { s.status with run := .failed } }

/-- `finish()` (spec/00 R16). -/
def finish (s : State) : State := { s with status := { s.status with run := .done } }

/-- `STEP <- n` (spec/00 R16). -/
def gotoStep (n : StepIx) (s : State) : State := { s with stepIx := n }

/-! ### The random source (spec/00 R14) -/

/-- The answer of the next `DrawRnd`: the scripted one, else a free value (log entry 3). DESIGN CHOICE: the free value depends
on the counter alone, so two instances of a `Pair` with no scripted answer and equal counters draw the SAME number, where
spec/93 U1 relates the two ends' generators in no way; a statement about a pair that speaks of unrelated draws holds for
every list of scripted answers. -/
def drawValue (s : State) : Word :=
  match s.env.draws with
  | r :: _ => r
  | [] => Config.freeDraw s.env.free

/-- The state after one `DrawRnd`. -/
def drawTaken (s : State) : State :=
  match s.env.draws with
  | _ :: rs => { s with env := { s.env with draws := rs } }
  | [] => { s with env := { s.env with free := s.env.free + 1 } }

/-- The sequence number made of a draw (spec/40 R110; spec/92 D5). -/
def isn (p : Params) (r : Word) : Word := if p.rndReducedInside then r % p.isnMod else r

/-! ### The channel (spec/20 R58 to R61, R73) -/

/-- What `ChanSend` answers. -/
inductive SendAnswer where
  | count (c : Nat)
  | error
deriving DecidableEq, Repr

/-- What `ChanRecv` answers. -/
inductive RecvAnswer where
  | bytes (r : List Byte)
  | error
deriving DecidableEq, Repr

/-- `ChanSend` has no outcome yet: the direction takes no bytes and is not `down` (spec/20 R59 "blocks until the full segment
has been written or fails"; spec/70 R225; log entry 15). -/
def sendBlocked (s : State) : Bool := s.env.txStalled && !s.env.txDown

/-- The environment's choice for the next `ChanSend`: the scripted one; else full delivery while the direction is not
`down` (spec/20 R59), a free value when it is (log entry 4). -/
def sendChoice (s : State) : SendChoice :=
  match s.env.sendChoices with
  | c :: _ => c
  | [] => if s.env.txDown then Config.freeSend s.env.free else .full

/-- What a choice makes `ChanSend` answer (spec/20 R59). -/
def sendAnswer : SendChoice → SendAnswer
  | .full => .count 24
  | .count c _ => .count c
  | .error _ => .error

/-- Which of the bytes enter the queue to the peer (spec/20 R59, R73). -/
def sendEntered (bs : List Byte) : SendChoice → List Byte
  | .full => bs
  | .count c k => if c = 24 then bs else bs.take k
  | .error k => bs.take k

/-- The state after `ChanSend(bs)`. -/
def afterSend (bs : List Byte) (s : State) : State :=
  { s with env := { s.env with
      txq := s.env.txq ++ sendEntered bs (sendChoice s)
      sendChoices := s.env.sendChoices.tail
      free := if s.env.sendChoices.isEmpty && s.env.txDown then s.env.free + 1 else s.env.free } }

/-- `ChanRecv(24)` has no outcome yet: fewer than 24 bytes wait and the direction is not `down` (spec/20 R60 (c)). -/
def recvBlocked (s : State) : Bool := decide (s.env.rxq.length < 24) && !s.env.rxDown

/-- The environment's choice for the next `ChanRecv`: the scripted one; else the regular one while 24 bytes wait, a free
value when they do not (log entry 5). -/
def recvChoice (s : State) : RecvChoice :=
  match s.env.recvChoices with
  | c :: _ => c
  | [] => if s.env.rxq.length < 24 then Config.freeRecv s.env.free else .regular

/-- How many waiting bytes a choice takes from the queue: 24 or more where that many wait (outcome (a), or the wrong count
above 24), else what the choice says (outcome (b)) (spec/20 R60; spec/92 D26). -/
def recvTakes (avail : Nat) : RecvChoice → Nat
  | .regular => min avail 24
  | .count n => if avail < 24 then min avail n else max 24 (min avail n)
  | .error k => if avail < 24 then min avail k else 24

/-- What `ChanRecv(24)` answers when it is not blocked (spec/20 R60). -/
def recvAnswer (s : State) : RecvAnswer :=
  match recvChoice s with
  | .error k => if s.env.rxq.length < 24 then .error else .bytes (s.env.rxq.take (recvTakes s.env.rxq.length (.error k)))
  | c => .bytes (s.env.rxq.take (recvTakes s.env.rxq.length c))

/-- The state after `ChanRecv(24)` has answered: the bytes it returned (or lost) are consumed (spec/20 R61). -/
def afterRecv (s : State) : State :=
  { s with env := { s.env with
      rxq := s.env.rxq.drop (recvTakes s.env.rxq.length (recvChoice s))
      recvChoices := s.env.recvChoices.tail
      free := if s.env.recvChoices.isEmpty && decide (s.env.rxq.length < 24) then s.env.free + 1 else s.env.free } }

/-- `BUF` unspecified: 24 free bytes (spec/20 R72; spec/93 U4; log entry 6). -/
def bufUnspecified (s : State) : State :=
  { s with
    buf := Memory.ofBytes ((List.range 24).map (Config.freeByte s.env.free))
    env := { s.env with free := s.env.free + 1 } }

/-! ### Reset and the host's writes (spec/70 R220; spec/10 R39; spec/60 R203) -/

/-- The reset input: every register of the block to its reset value; the environment is untouched (spec/70 R220). -/
def resetBlock (s : State) : State := { State.reset with env := s.env }

/-- The host writes `SEG`; while `BUSY` it has no effect (spec/10 R39; log entry 13). -/
def hostWriteSeg (g : Segment) (s : State) : State := if s.status.run = .busy then s else { s with seg := g }

/-- The host writes a byte of `BUF`; while `BUSY` it has no effect (spec/10 R39; log entries 13, 14). -/
def hostWriteBuf (offset : Nat) (b : Byte) (s : State) : State :=
  if s.status.run = .busy then s else { s with buf := Memory.write s.buf offset b }

/-! ### The registers as the host reads them: the spec's own codes (spec/10 R26 to R29; spec/60 R180; log entry 23) -/

/-- The code of `OP` (spec/10 R20). -/
def opCode : ExOp → BitVec 1
  | .openEx => 0
  | .closeEx => 1

/-- The code of `ROLE` (spec/10 R20). -/
def roleCode : Role → BitVec 1
  | .initiator => 0
  | .responder => 1

/-- The code of `STEP` (spec/10 R26). -/
def stepCode : StepIx → BitVec 2
  | .s0 => 0
  | .s1 => 1
  | .s2 => 2
  | .s3 => 3

/-- The code of `STATUS.state` (spec/10 R28). -/
def runCode : RunState → BitVec 2
  | .idle => 0
  | .busy => 1
  | .done => 2
  | .failed => 3

/-- `STATUS` as the host reads it: `cmd_err` in bit 2, `state` in bits 1:0 (spec/10 R28). -/
def statusWord (st : Status) : BitVec 3 := BitVec.ofBool st.cmdErr ++ runCode st.run

/-- The code of `ERR.kind` (spec/60 R180). -/
def errKindCode : ErrKind → BitVec 3
  | .none => 0
  | .shortIo => 1
  | .checksumMismatch => 2
  | .sequenceMismatch => 3
  | .acknowledgmentMismatch => 4
  | .flagMismatch => 5

/-- The code of `ERR.dir` (spec/10 R29). -/
def dirCode : IoDir → BitVec 1
  | .send => 0
  | .recv => 1

/-- The `Result` of an exchange as the host sees it (spec/60 R193): nothing while none has ended. -/
inductive ExResult where
  | ok
  | err (e : ErrReg)
deriving DecidableEq, Repr

/-- `Ok` in `DONE`, `Err(ERR)` in `FAILED` (spec/60 R193). -/
def exchangeResult (s : State) : Option ExResult :=
  match s.status.run with
  | .done => some .ok
  | .failed => some (.err s.err)
  | .idle => none
  | .busy => none

end Sys2Proof.Machine
end

