-- ==== Sys2Proof/Machine/Operands.lean ====
section
/-! DEFINITION. Operand assembly (spec/30 R86): the fields of a segment in `BUF`, the codec functions `pack` and `unpack`,
a fresh segment, and the twelve words the checksum sums. -/

namespace Sys2Proof.Machine

/-- A 16-bit field (spec/30 R86 (a)). -/
def field16 (o : WireOrder) (m : Memory) (addr : Nat) : Half := BitVec.ofNat 16 (memRead o m addr 2)

/-- A 32-bit field (spec/30 R86 (a)). -/
def field32 (o : WireOrder) (m : Memory) (addr : Nat) : Word := BitVec.ofNat 32 (memRead o m addr 4)

/-- `pack(s)`: the wire image, field by field at the offsets of spec/20 R52 (spec/40 R116). -/
def pack (o : WireOrder) (g : Segment) : Memory :=
  let m := memWrite o [] 0 2 g.sport.toNat
  let m := memWrite o m 2 2 g.dport.toNat
  let m := memWrite o m 4 4 g.seq.toNat
  let m := memWrite o m 8 4 g.ack.toNat
  let m := memWrite o m 12 2 g.ctrl.toNat
  let m := memWrite o m 14 2 g.win.toNat
  let m := memWrite o m 16 2 g.csum.toNat
  let m := memWrite o m 18 2 g.urg.toNat
  memWrite o m 20 4 g.opt.toNat

/-- `unpack(b)`: the nine fields of a wire image (spec/40 R117). Total (spec/30 R91). -/
def unpack (o : WireOrder) (m : Memory) : Segment where
  sport := field16 o m 0
  dport := field16 o m 2
  seq := field32 o m 4
  ack := field32 o m 8
  ctrl := field16 o m 12
  win := field16 o m 14
  csum := field16 o m 16
  urg := field16 o m 18
  opt := field32 o m 20

/-- `Fresh(sp, dp, q)`: ports, sequence number, `hlen` 6 (spec/00 R8) in bits 15:12, everything else 0 (spec/40 R122). -/
def fresh (sp dp : Half) (q : Word) : Segment where
  sport := sp
  dport := dp
  seq := q
  ack := 0#32
  ctrl := 0x6000#16
  win := 0#16
  csum := 0#16
  urg := 0#16
  opt := 0#32

/-- Bits 15:0 of a 32-bit field. -/
def lowHalf (v : Word) : Nat := v.toNat % 2 ^ 16

/-- Bits 31:16 of a 32-bit field. -/
def highHalf (v : Word) : Nat := v.toNat / 2 ^ 16

/-- The checksum words in field form, the checksum's own word being 0 (spec/41 R131). -/
def checksumWords (g : Segment) : List Nat :=
  [g.sport.toNat, g.dport.toNat, lowHalf g.seq, highHalf g.seq, lowHalf g.ack, highHalf g.ack, g.ctrl.toNat, g.win.toNat, 0,
    g.urg.toNat, lowHalf g.opt, highHalf g.opt]

/-- Checksum word `i` in byte form, word 8 replaced by 0 (spec/41 R130; spec/30 R86 (d)). -/
def imageWord (o : WireOrder) (m : Memory) (i : Nat) : Nat := if i = 8 then 0 else memRead o m (2 * i) 2

end Sys2Proof.Machine
end

