-- ==== Sys2Proof/Machine/Flags.lean ====
section
/-! DEFINITION. The control word: its six flags and two subfields, and every operation on them (spec/10 R31 to R33;
spec/30 R82 to R84). -/

namespace Sys2Proof.Machine

/-- The mask of a flag identifier (spec/30 R84). -/
def flagMask (f : FlagId) : Half := 1#16 <<< f.pos

/-- The six flags, bits 5:0 (spec/30 R83). -/
def ctrlFlags (c : Half) : BitVec 6 := (c &&& 0x003F#16).setWidth 6

/-- The reserved bits, bits 11:6 (spec/30 R83). -/
def ctrlReserved (c : Half) : BitVec 6 := ((c &&& 0x0FC0#16) >>> 6).setWidth 6

/-- The header length ("offset"), bits 15:12 (spec/30 R83). -/
def ctrlHlen (c : Half) : BitVec 4 := ((c &&& 0xF000#16) >>> 12).setWidth 4

/-- `ctrl | (1 << f)` (spec/40 R111). -/
def ctrlSet (f : FlagId) (c : Half) : Half := c ||| flagMask f

/-- `ctrl & ~(1 << f)` (spec/40 R112); under the parameter `CLEAR_BUG` the reference defect `ctrl & (0 << f)`
(spec/40 R120). -/
def ctrlClear (p : Params) (f : FlagId) (c : Half) : Half := if p.clearBug then c &&& (0#16 <<< f.pos) else c &&& ~~~(flagMask f)

/-- `checkFlag(s, f)` on a control word (spec/40 R113). -/
def ctrlHas (f : FlagId) (c : Half) : Bool := (c >>> f.pos) &&& 1#16 == 1#16

/-- `setFlag(s, f)` (spec/40 R111). -/
def setFlag (f : FlagId) (g : Segment) : Segment := { g with ctrl := ctrlSet f g.ctrl }

/-- `clearFlag(s, f)` (spec/40 R112). -/
def clearFlag (p : Params) (f : FlagId) (g : Segment) : Segment := { g with ctrl := ctrlClear p f g.ctrl }

/-- `checkFlag(s, f)` (spec/40 R113). -/
def checkFlag (f : FlagId) (g : Segment) : Bool := ctrlHas f g.ctrl

/-- The six flag identifiers in ascending order (spec/10 R33). -/
def allFlags : List FlagId := [.fin, .syn, .rst, .psh, .ack, .urg]

/-- The flag-name table, a constant (spec/10 R33; spec/30 R98). -/
def flagName : FlagId → String
  | .fin => "FIN"
  | .syn => "SYN"
  | .rst => "RST"
  | .psh => "PSH"
  | .ack => "ACK"
  | .urg => "URG"

/-- The code of `ERR.flag`: the flag identifier (spec/10 R29). -/
def flagCode (f : FlagId) : BitVec 3 := BitVec.ofNat 3 f.pos

/-- The lowest-numbered flag set in a flag field (spec/60 R195); `FIN` where none is set, which no strict check meets
(log entry 24). -/
def lowestFlag (v : BitVec 6) : FlagId := (allFlags.find? fun f => v.getLsbD f.pos).getD .fin

/-- `Report(s)` (spec/40 R118). -/
def report (g : Segment) : Report where
  sport := g.sport
  dport := g.dport
  seq := g.seq
  ack := g.ack
  offset := ctrlHlen g.ctrl
  reserved := ctrlReserved g.ctrl
  flags := ctrlFlags g.ctrl
  names := (allFlags.filter fun f => checkFlag f g).map flagName
  csum := g.csum
  win := g.win
  urg := g.urg
  opt := g.opt

/-- `Trace(dir, SEG)`: one record goes to the sink; no register changes (spec/00 R14; spec/60 R200). -/
def emitTrace (dir : TraceDir) (s : State) : State :=
  { s with env := { s.env with trace := s.env.trace ++ [⟨dir, s.op, s.role, s.stepIx, report s.seg⟩] } }

end Sys2Proof.Machine
end

