-- ==== Sys2Proof/Machine/Codec.lean ====
section
/-! DEFINITION. The nine codec operations (spec/40 R110 to R118). Each acts on the register `SEG` (spec/30 R94), through the
command port (spec/60 R194). -/

namespace Sys2Proof.Machine

/-- `CREATE`: one draw, a fresh segment (spec/40 R110). -/
def createSeg (p : Params) (sp dp : Half) (s : State) : State :=
  { drawTaken s with seg := fresh sp dp (isn p (drawValue s)) }

/-- `CREATE srcPort, destPort` (spec/40 R110). -/
def execCreate (srcPort destPort : Half) (s : State) : Outcome := onCommandPort (createSeg decided srcPort destPort) s

/-- `SETFLAG f` (spec/40 R111). -/
def execSetFlag (f : FlagId) (s : State) : Outcome := onCommandPort (fun s => { s with seg := setFlag f s.seg }) s

/-- `CLEARFLAG f` (spec/40 R112). -/
def execClearFlag (f : FlagId) (s : State) : Outcome := onCommandPort (fun s => { s with seg := clearFlag decided f s.seg }) s

/-- `CHECKFLAG f`: `RES` is 1 or 0 (spec/40 R113). -/
def execCheckFlag (f : FlagId) (s : State) : Outcome := onCommandPort (fun s => setRes (boolWord (checkFlag f s.seg)) s) s

/-- `GETOFF`: `RES` is the header length (spec/40 R114). -/
def execGetOff (s : State) : Outcome := onCommandPort (fun s => setRes ((ctrlHlen s.seg.ctrl).setWidth 32) s) s

/-- `GETRSV`: `RES` is the reserved bits (spec/40 R115). -/
def execGetRsv (s : State) : Outcome := onCommandPort (fun s => setRes ((ctrlReserved s.seg.ctrl).setWidth 32) s) s

/-- `PACK`: `BUF[0..23] <- pack(SEG)` (spec/40 R116). -/
def execPack (s : State) : Outcome := onCommandPort (fun s => { s with buf := pack decided.wireOrder s.seg }) s

/-- `UNPACK`: `SEG <- unpack(BUF[0..23])` (spec/40 R117). -/
def execUnpack (s : State) : Outcome := onCommandPort (fun s => { s with seg := unpack decided.wireOrder s.buf }) s

/-- `REPORT`: one trace record (spec/40 R118). -/
def execReport (s : State) : Outcome := onCommandPort (emitTrace .rpt) s

end Sys2Proof.Machine
end

