-- ==== Sys2Proof/Machine/Checksum.lean ====
section
/-! DEFINITION. The checksum engine (spec/41 R130 to R133). -/

namespace Sys2Proof.Machine

/-- The carry fold `a[15:0] + a[31:16]` (spec/41 R130, R131). -/
def fold (a : Nat) : Nat := a % 2 ^ 16 + a / 2 ^ 16

/-- The sum in the 32-bit accumulator, word by word (spec/41 R130). -/
def accumulate (ws : List Nat) : Nat := ws.foldl (fun acc w => (acc + w) % 2 ^ 32) 0

/-- Two folds, then the complement of the low 16 bits (spec/41 R130). -/
def checksumOf (ws : List Nat) : Half := ~~~(BitVec.ofNat 16 (fold (fold (accumulate ws))))

/-- `checksum(s)`, field form (spec/41 R131). -/
def checksum (g : Segment) : Half := checksumOf (checksumWords g)

/-- `checksum(s)`, byte form: the words of the wire image (spec/41 R130). -/
def checksumImage (o : WireOrder) (g : Segment) : Half := checksumOf ((List.range 12).map (imageWord o (pack o g)))

/-- `stamp(s)` (spec/41 R132). -/
def stamp (g : Segment) : Segment :=
  let g := { g with csum := 0#16 }
  { g with csum := checksum g }

/-- `verify(s)` (spec/41 R133). -/
def verify (g : Segment) : Bool := checksum g == g.csum

/-- `CHECKSUM` (spec/41 R130). -/
def execChecksum (s : State) : Outcome := onCommandPort (fun s => setRes ((checksum s.seg).setWidth 32) s) s

/-- `STAMP` (spec/41 R132). -/
def execStamp (s : State) : Outcome := onCommandPort (fun s => { s with seg := stamp s.seg }) s

/-- `VERIFY` (spec/41 R133). -/
def execVerify (s : State) : Outcome := onCommandPort (fun s => setRes (boolWord (verify s.seg)) s) s

end Sys2Proof.Machine
end

