-- ==== Sys2Proof/Machine/Channel.lean ====
section
/-! DEFINITION. What the exchange steps share: the fourteen steps by name, the send and receive micro-sequences (spec/20
R71, R72) and the checks (spec/60 R181 to R186, R195). A micro-sequence and a check take the rest of the step as their last
argument and run it only where they do not `raise` (spec/00 R15), so a step rule reads as the spec's pseudocode. -/

namespace Sys2Proof.Machine

/-- The fourteen steps of the four machines (spec/10 R26; spec/60 R186). -/
inductive ExStep where
  | oiSendRequest
  | oiAwaitGrant
  | oiSendAck
  | orAwaitRequest
  | orSendGrant
  | orAwaitAck
  | ciSendFin
  | ciAwaitAck1
  | ciAwaitFin
  | ciSendAck2
  | crAwaitFin
  | crSendAck
  | crSendFin
  | crAwaitAck
deriving DecidableEq, Repr

/-- The step that `OP`, `ROLE`, `STEP` select: fixed wiring (spec/10 R26; spec/20 R67). -/
def stepAt : ExOp → Role → StepIx → Option ExStep
  | .openEx, .initiator, .s0 => some .oiSendRequest
  | .openEx, .initiator, .s1 => some .oiAwaitGrant
  | .openEx, .initiator, .s2 => some .oiSendAck
  | .openEx, .initiator, .s3 => none
  | .openEx, .responder, .s0 => some .orAwaitRequest
  | .openEx, .responder, .s1 => some .orSendGrant
  | .openEx, .responder, .s2 => some .orAwaitAck
  | .openEx, .responder, .s3 => none
  | .closeEx, .initiator, .s0 => some .ciSendFin
  | .closeEx, .initiator, .s1 => some .ciAwaitAck1
  | .closeEx, .initiator, .s2 => some .ciAwaitFin
  | .closeEx, .initiator, .s3 => some .ciSendAck2
  | .closeEx, .responder, .s0 => some .crAwaitFin
  | .closeEx, .responder, .s1 => some .crSendAck
  | .closeEx, .responder, .s2 => some .crSendFin
  | .closeEx, .responder, .s3 => some .crAwaitAck

/-- The step a running exchange performs next; none when no exchange runs (spec/10 R26). -/
def activeStep (s : State) : Option ExStep :=
  if s.status.run = .busy then stepAt s.op s.role s.stepIx else none

/-- The control word of the segment kind a send step builds; none for a receive step (spec/10 R32; spec/30 R87). -/
def builtControl : ExStep → Option Half
  | .oiSendRequest => some 0x6002#16
  | .oiSendAck => some 0x6010#16
  | .orSendGrant => some 0x6012#16
  | .ciSendFin => some 0x6001#16
  | .ciSendAck2 => some 0x6010#16
  | .crSendAck => some 0x6010#16
  | .crSendFin => some 0x6001#16
  | .oiAwaitGrant => none
  | .orAwaitRequest => none
  | .orAwaitAck => none
  | .ciAwaitAck1 => none
  | .ciAwaitFin => none
  | .crAwaitFin => none
  | .crAwaitAck => none

/-! ### The micro-sequences -/

/-- `SendSeg()` up to the call of `ChanSend`: `BUF` holds the image and the record is out (spec/20 R71). -/
def loadSend (p : Params) (s : State) : State := emitTrace .tx { s with buf := pack p.wireOrder s.seg }

/-- `SendSeg()`, and then the rest of the step (spec/20 R71). -/
def sendSeg (p : Params) (s : State) (rest : State → State) : State :=
  let s := loadSend p s
  let t := afterSend (Memory.bytes s.buf) s
  match sendAnswer (sendChoice s) with
  | .error => raise .shortIo { dir := .send, chanErr := true, expected := 24#32, observed := 0#32 } t
  | .count c =>
    if c = 24 then rest t
    else raise .shortIo { dir := .send, chanErr := false, expected := 24#32, observed := BitVec.ofNat 32 c } t

/-- A send step: build the segment, send it, and then the rest of the step. While the send is blocked the instance has no step
and stays as it is (spec/70 R225; log entries 9, 15). -/
def sendStep (p : Params) (build rest : State → State) (s : State) : State :=
  if sendBlocked s then s else sendSeg p (build s) rest

/-- A full segment has been received: `BUF`, `SEG` and the trace hold it (spec/20 R72). -/
def latchSegment (p : Params) (r : List Byte) (s : State) : State :=
  emitTrace .rx { s with buf := Memory.ofBytes r, seg := unpack p.wireOrder (Memory.ofBytes r) }

/-- `RecvSeg()`, and then the rest of the step; blocked, the instance stays as it is (spec/20 R72; spec/70 R225;
log entry 9). -/
def recvSeg (p : Params) (s : State) (rest : State → State) : State :=
  if recvBlocked s then s
  else
    match recvAnswer s with
    | .error =>
      raise .shortIo { dir := .recv, chanErr := true, disc := false, expected := 24#32, observed := 0#32 } (bufUnspecified (afterRecv s))
    | .bytes r =>
      if r.length = 24 then rest (latchSegment p r (afterRecv s))
      else
        raise .shortIo
          { dir := .recv, chanErr := false, disc := r.length == 0, expected := 24#32, observed := BitVec.ofNat 32 r.length }
          (bufUnspecified (afterRecv s))

/-! ### The checks -/

/-- The checksum check (spec/60 R182). -/
def requireChecksum (s : State) (rest : State → State) : State :=
  if verify s.seg then rest s
  else raise .checksumMismatch { expected := (checksum s.seg).setWidth 32, observed := s.seg.csum.setWidth 32 } s

/-- The sequence number check, against `PEER_SEQ + 1` (spec/60 R183). -/
def requireSeq (s : State) (rest : State → State) : State :=
  if s.seg.seq = s.peerSeq + 1#32 then rest s
  else raise .sequenceMismatch { expected := s.peerSeq + 1#32, observed := s.seg.seq } s

/-- The acknowledgment check, against a given value (spec/60 R184). -/
def requireAck (expected : Word) (s : State) (rest : State → State) : State :=
  if s.seg.ack = expected then rest s
  else raise .acknowledgmentMismatch { expected := expected, observed := s.seg.ack } s

/-- The presence check of one flag (spec/60 R185). -/
def requireFlag (f : FlagId) (s : State) (rest : State → State) : State :=
  if checkFlag f s.seg then rest s
  else raise .flagMismatch { flag := f, expected := (flagMask f).setWidth 32, observed := (ctrlFlags s.seg.ctrl).setWidth 32 } s

/-- The strict check that follows the last presence check under `STRICT_FLAGS`, and nothing otherwise (spec/60 R195). -/
def requireOnly (p : Params) (required : BitVec 6) (s : State) (rest : State → State) : State :=
  if p.strictFlags && ctrlFlags s.seg.ctrl != required then
    raise .flagMismatch
      { flag := lowestFlag (ctrlFlags s.seg.ctrl &&& ~~~required), unexpected := true, expected := required.setWidth 32,
        observed := (ctrlFlags s.seg.ctrl).setWidth 32 } s
  else rest s

/-! ### The segments the send steps build -/

/-- A new segment with a drawn sequence number, kept in `LOCAL_SEQ` (spec/42 R141, R146; spec/43 R161, R167). -/
def drawnSegment (p : Params) (s : State) : State :=
  let q := isn p (drawValue s)
  { drawTaken s with seg := fresh s.localPort s.peerPort q, localSeq := q }

/-- Write `SEG` as a function of itself. -/
def mapSeg (f : Segment → Segment) (s : State) : State := { s with seg := f s.seg }

/-- Acknowledge the peer: `SEG.ack <- PEER_SEQ +_32 1`. -/
def ackPeer (s : State) : State := { s with seg := { s.seg with ack := s.peerSeq + 1#32 } }

/-- The initiator's final acknowledgment before its flag is set: a new segment, no draw (spec/42 R143; spec/43 R164). -/
def followUpSegment (s : State) : State :=
  ackPeer { s with seg := fresh s.localPort s.peerPort (s.localSeq + 1#32) }

/-- Keep the received sequence number in `PEER_SEQ` (spec/10 R25). -/
def latchPeer (s : State) : State := { s with peerSeq := s.seg.seq }

end Sys2Proof.Machine
end

