-- ==== Sys2Proof/Machine/Close.lean ====
section
/-! DEFINITION. The close exchange: the two entries and the eight step rules (spec/43 R160 to R170). -/

namespace Sys2Proof.Machine

/-- `CLOSE.I localPort, peerPort` (spec/43 R160). -/
def execCloseI (localPort peerPort : Half) (s : State) : Outcome :=
  onCommandPort (enterExchange .closeEx .initiator localPort peerPort) s

/-- `CLOSE.R localPort, peerPort` (spec/43 R160). -/
def execCloseR (localPort peerPort : Half) (s : State) : Outcome :=
  onCommandPort (enterExchange .closeEx .responder localPort peerPort) s

/-- `CI.SendFin` (spec/43 R161). -/
def ciSendFin (p : Params) (s : State) : State :=
  sendStep p (fun s => mapSeg stamp (mapSeg (setFlag .fin) (drawnSegment p s))) (gotoStep .s1) s

/-- `CI.AwaitAck1` (spec/43 R162). -/
def ciAwaitAck1 (p : Params) (s : State) : State :=
  recvSeg p s fun s => requireChecksum s fun s => requireAck (s.localSeq + 1#32) s fun s => requireFlag .ack s fun s =>
    requireOnly p 0x10#6 s fun s => gotoStep .s2 (latchPeer s)

/-- `CI.AwaitFin` (spec/43 R163). -/
def ciAwaitFin (p : Params) (s : State) : State :=
  recvSeg p s fun s => requireChecksum s fun s => requireAck (s.localSeq + 1#32) s fun s => requireFlag .fin s fun s =>
    requireOnly p 0x01#6 s fun s => gotoStep .s3 s

/-- `CI.SendAck2` (spec/43 R164). -/
def ciSendAck2 (p : Params) (s : State) : State :=
  sendStep p (fun s => mapSeg stamp (mapSeg (setFlag .ack) (followUpSegment s))) finish s

/-- `CR.AwaitFin`: the acknowledgment is compared with the constant 0 (spec/43 R166). -/
def crAwaitFin (p : Params) (s : State) : State :=
  recvSeg p s fun s => requireChecksum s fun s => requireAck 0#32 s fun s => requireFlag .fin s fun s =>
    requireOnly p 0x01#6 s fun s => gotoStep .s1 (latchPeer s)

/-- `CR.SendAck` (spec/43 R167). -/
def crSendAck (p : Params) (s : State) : State :=
  sendStep p (fun s => mapSeg stamp (mapSeg (setFlag .ack) (ackPeer (drawnSegment p s)))) (gotoStep .s2) s

/-- `CR.SendFin`: the acknowledgment just sent is the template (spec/43 R168). -/
def crSendFin (p : Params) (s : State) : State :=
  sendStep p (fun s => mapSeg stamp (mapSeg (setFlag .fin) (mapSeg (clearFlag p .ack) s))) (gotoStep .s3) s

/-- `CR.AwaitAck` (spec/43 R169). -/
def crAwaitAck (p : Params) (s : State) : State :=
  recvSeg p s fun s => requireChecksum s fun s => requireSeq s fun s => requireAck (s.localSeq + 1#32) s fun s =>
    requireFlag .ack s fun s => requireOnly p 0x10#6 s fun s => finish s

end Sys2Proof.Machine
end

