-- ==== Sys2Proof/Machine/Handshake.lean ====
section
/-! DEFINITION. The open exchange: the two entries and the six step rules (spec/42 R140 to R148). -/

namespace Sys2Proof.Machine

/-- `OPEN.I localPort, peerPort` (spec/42 R140). -/
def execOpenI (localPort peerPort : Half) (s : State) : Outcome :=
  onCommandPort (enterExchange .openEx .initiator localPort peerPort) s

/-- `OPEN.R localPort, peerPort` (spec/42 R140). -/
def execOpenR (localPort peerPort : Half) (s : State) : Outcome :=
  onCommandPort (enterExchange .openEx .responder localPort peerPort) s

/-- `OI.SendRequest` (spec/42 R141). -/
def oiSendRequest (p : Params) (s : State) : State :=
  sendStep p (fun s => mapSeg stamp (mapSeg (setFlag .syn) (drawnSegment p s))) (gotoStep .s1) s

/-- `OI.AwaitGrant`: the one receive step whose checksum check comes last (spec/42 R142; spec/90 C7). -/
def oiAwaitGrant (p : Params) (s : State) : State :=
  recvSeg p s fun s => requireAck (s.localSeq + 1#32) s fun s => requireFlag .syn s fun s => requireFlag .ack s fun s =>
    requireOnly p 0x12#6 s fun s => requireChecksum s fun s => gotoStep .s2 (latchPeer s)

/-- `OI.SendAck` (spec/42 R143). -/
def oiSendAck (p : Params) (s : State) : State :=
  sendStep p (fun s => mapSeg stamp (mapSeg (setFlag .ack) (followUpSegment s))) finish s

/-- `OR.AwaitRequest` (spec/42 R145). -/
def orAwaitRequest (p : Params) (s : State) : State :=
  recvSeg p s fun s => requireChecksum s fun s => requireFlag .syn s fun s =>
    requireOnly p 0x02#6 s fun s => gotoStep .s1 (latchPeer s)

/-- `OR.SendGrant` (spec/42 R146). -/
def orSendGrant (p : Params) (s : State) : State :=
  sendStep p (fun s => mapSeg stamp (mapSeg (setFlag .ack) (mapSeg (setFlag .syn) (ackPeer (drawnSegment p s))))) (gotoStep .s2) s

/-- `OR.AwaitAck` (spec/42 R147). -/
def orAwaitAck (p : Params) (s : State) : State :=
  recvSeg p s fun s => requireChecksum s fun s => requireSeq s fun s => requireAck (s.localSeq + 1#32) s fun s =>
    requireFlag .ack s fun s => requireOnly p 0x10#6 s fun s => finish s

end Sys2Proof.Machine
end

