-- ==== Sys2Proof/Machine/Segments.lean ====
section
/-! DEFINITION. The four built segment kinds as instructions (spec/30 R87): carrying one out at a send step that builds it
IS that send step. Nowhere else does the spec give it an effect (spec/30 R97 (c)), and there it is refused by name (log
entry 10). The wired sequence only ever asks for the kind its step builds (Machine/Fetch.lean). -/

namespace Sys2Proof.Machine

/-- `seg.SYN`: the open request of `OI.SendRequest` (spec/42 R141). -/
def execSegSyn (s : State) : Outcome :=
  if activeStep s = some .oiSendRequest then .next (oiSendRequest decided s)
  else .refused .notAtBuildingStep

/-- `seg.SYNACK`: the open grant of `OR.SendGrant` (spec/42 R146). -/
def execSegSynAck (s : State) : Outcome :=
  if activeStep s = some .orSendGrant then .next (orSendGrant decided s)
  else .refused .notAtBuildingStep

/-- `seg.ACK`: the acknowledgments of `OI.SendAck`, `CI.SendAck2` and `CR.SendAck` (spec/42 R143; spec/43 R164, R167). -/
def execSegAck (s : State) : Outcome :=
  if activeStep s = some .oiSendAck then .next (oiSendAck decided s)
  else if activeStep s = some .ciSendAck2 then .next (ciSendAck2 decided s)
  else if activeStep s = some .crSendAck then .next (crSendAck decided s)
  else .refused .notAtBuildingStep

/-- `seg.FIN`: the close requests of `CI.SendFin` and `CR.SendFin` (spec/43 R161, R168). -/
def execSegFin (s : State) : Outcome :=
  if activeStep s = some .ciSendFin then .next (ciSendFin decided s)
  else if activeStep s = some .crSendFin then .next (crSendFin decided s)
  else .refused .notAtBuildingStep

end Sys2Proof.Machine
end

