-- ==== Sys2Proof/Machine/Dispatch.lean ====
section
/-! DEFINITION. The dispatch: one arm per constructor of `Instr`, each one direct call of its meaning. -/

namespace Sys2Proof.Machine

def exec (i : Instr) (s : State) : Host.Outcome State Fault Refusal :=
  match i with
  | .create srcPort destPort => Sys2Proof.Machine.execCreate srcPort destPort s
  | .setFlag f => Sys2Proof.Machine.execSetFlag f s
  | .clearFlag f => Sys2Proof.Machine.execClearFlag f s
  | .checkFlag f => Sys2Proof.Machine.execCheckFlag f s
  | .getOff => Sys2Proof.Machine.execGetOff s
  | .getRsv => Sys2Proof.Machine.execGetRsv s
  | .pack => Sys2Proof.Machine.execPack s
  | .unpack => Sys2Proof.Machine.execUnpack s
  | .report => Sys2Proof.Machine.execReport s
  | .checksum => Sys2Proof.Machine.execChecksum s
  | .stamp => Sys2Proof.Machine.execStamp s
  | .verify => Sys2Proof.Machine.execVerify s
  | .openI localPort peerPort => Sys2Proof.Machine.execOpenI localPort peerPort s
  | .openR localPort peerPort => Sys2Proof.Machine.execOpenR localPort peerPort s
  | .closeI localPort peerPort => Sys2Proof.Machine.execCloseI localPort peerPort s
  | .closeR localPort peerPort => Sys2Proof.Machine.execCloseR localPort peerPort s
  | .segSyn => Sys2Proof.Machine.execSegSyn s
  | .segSynAck => Sys2Proof.Machine.execSegSynAck s
  | .segAck => Sys2Proof.Machine.execSegAck s
  | .segFin => Sys2Proof.Machine.execSegFin s

end Sys2Proof.Machine
end

