-- ==== Sys2Proof/Machine/Fetch.lean ====
section
/-! DEFINITION. What the next step takes: the next event outside, if one is pending, and the step the wired sequence of a
running exchange names. The block fetches no program (spec/20 R67): a command word comes from the command port (spec/30
R92), the control word of a segment to build from the wired sequence (spec/10 R26, R32). -/

namespace Sys2Proof.Machine

/-- What the next step runs. -/
inductive Fetched where
  /-- an encoded word, and the state once it has been taken from where it stood -/
  | word (e : Encoded) (s : State)
  /-- no instruction: the state the step ends in -/
  | plain (s : State)
  /-- the sequence names no step (spec/10 R26) -/
  | stuck
deriving DecidableEq, Repr

/-- The receive steps, which have no instruction word (spec/42 R142, R145, R147; spec/43 R162, R163, R166, R169). -/
def receiveStep (p : Params) (e : ExStep) (s : State) : State :=
  match e with
  | .oiAwaitGrant => oiAwaitGrant p s
  | .orAwaitRequest => orAwaitRequest p s
  | .orAwaitAck => orAwaitAck p s
  | .ciAwaitAck1 => ciAwaitAck1 p s
  | .ciAwaitFin => ciAwaitFin p s
  | .crAwaitFin => crAwaitFin p s
  | .crAwaitAck => crAwaitAck p s
  | .oiSendRequest => s
  | .oiSendAck => s
  | .orSendGrant => s
  | .ciSendFin => s
  | .ciSendAck2 => s
  | .crSendAck => s
  | .crSendFin => s

/-- A step of the block itself: nothing while no exchange runs (spec/70 R221), else the step the sequence names. -/
def fetchOwn (s : State) : Fetched :=
  if s.status.run = .busy then
    match stepAt s.op s.role s.stepIx with
    | none => .stuck
    | some e =>
      match builtControl e with
      | some w => .word (.ctrl w) s
      | none => .plain (receiveStep decided e s)
  else .plain s

/-- What one event outside does to the machine (log entries 8, 13, 14, 15). -/
def fetchInput (i : Input) (s : State) : Fetched :=
  match i with
  | .command w a0 a1 => .word (.cmd w a0 a1) s
  | .writeSeg g => .plain (hostWriteSeg g s)
  | .writeBuf k b => .plain (hostWriteBuf k.val b s)
  | .reset => .plain (resetBlock s)
  | .arrive bs => .plain { s with env := { s.env with rxq := s.env.rxq ++ bs } }
  | .collect n => .plain { s with env := { s.env with txq := s.env.txq.drop n } }
  | .rxDown => .plain { s with env := { s.env with rxDown := true } }
  | .txDown => .plain { s with env := { s.env with txDown := true } }
  | .txStall => .plain { s with env := { s.env with txStalled := true } }
  | .txResume => .plain { s with env := { s.env with txStalled := false } }
  | .advance => fetchOwn s

/-- What the next step runs: the next pending event, else a step of the block itself. -/
def fetch (s : State) : Fetched :=
  match s.env.inputs with
  | i :: rest => fetchInput i { s with env := { s.env with inputs := rest } }
  | [] => fetchOwn s

/-- A word that stands for no instruction: an illegal command is refused (spec/30 R95; spec/60 R194); the sequence never
names an illegal control word. -/
def onRejectedWord (e : Encoded) (s : State) : Outcome :=
  match e with
  | .cmd _ _ _ => .next (refuseCommand s)
  | .ctrl _ => .fault .noStepRule

/-- Where the sequence stands when its next step builds the segment kind of a control word (log entry 11). -/
def sequenceFor (w : Half) : ExOp × Role × StepIx :=
  if w = 0x6012#16 then (.openEx, .responder, .s1)
  else if w = 0x6010#16 then (.openEx, .initiator, .s2)
  else if w = 0x6001#16 then (.closeEx, .initiator, .s0)
  else (.openEx, .initiator, .s0)

/-- Place a word where the next step takes it: a command at the head of the pending events; a segment kind by setting the
running exchange to a step that builds it, and letting the block take its own step (log entry 11). -/
def placeWord (e : Encoded) (s : State) : State :=
  match e with
  | .cmd w a0 a1 => { s with env := { s.env with inputs := .command w a0 a1 :: s.env.inputs } }
  | .ctrl w =>
    { s with
      op := (sequenceFor w).1, role := (sequenceFor w).2.1, stepIx := (sequenceFor w).2.2
      status := { s.status with run := .busy }
      env := { s.env with inputs := .advance :: s.env.inputs } }

end Sys2Proof.Machine
end

