-- ==== Sys2Proof/Machine/Step.lean ====
section
/-! DEFINITION. One step of the machine, and where the step's next instruction word is placed. -/

namespace Sys2Proof.Machine

/-- One step: one event outside, or one command, or one step of the running exchange (spec/00 R18). -/
def step (s : State) : Host.Outcome State Fault Refusal :=
  match fetch s with
  | .word e t =>
    match decode e with
    | .ok i => exec i t
    | .rejected _ => onRejectedWord e t
  | .plain t => .next t
  | .stuck => .fault .noStepRule

/-- The state whose very next step runs the instruction of a word of spec/opcode_table.json (log entry 11). -/
def State.withFetchWord (s : State) (nbits w : Nat) : State := placeWord (encodedOfTableWord nbits w) s

end Sys2Proof.Machine
end

