-- ==== Sys2Proof/Machine/System.lean ====
section
/-! DEFINITION. A system of two instances that share nothing but the channel (spec/60 R201; spec/20 R58, R62). Each side is a
machine of its own; between two steps the relay moves what one side has put into its queue to the other side's queue, in
order, and a `down` direction is `down` at both of its ends (log entry 20). -/

namespace Sys2Proof.Machine

/-- Which instance takes the next step. -/
inductive Side where
  | left
  | right
deriving DecidableEq, Repr

/-- Two instances joined by one channel. -/
structure Pair where
  left : State
  right : State
deriving DecidableEq, Repr

/-- What the instance `s` finds in its environment when it is joined to `peer`. -/
def linkTo (peer s : State) : State :=
  { s with env := { s.env with
      rxq := s.env.rxq ++ peer.env.txq
      txq := []
      rxDown := s.env.rxDown || peer.env.txDown
      txDown := s.env.txDown || peer.env.rxDown } }

/-- The channel moves every byte that one side has sent to the other side's queue (spec/20 R58, R62). -/
def relay (q : Pair) : Pair := ⟨linkTo q.right q.left, linkTo q.left q.right⟩

/-- One step of the system: one side steps, and the channel moves what it sent. -/
def pairStep (who : Side) (q : Pair) : Host.Outcome Pair Fault Refusal :=
  match who with
  | .left =>
    match step q.left with
    | .next t => .next (relay { q with left := t })
    | .fault r => .fault r
    | .refused r => .refused r
  | .right =>
    match step q.right with
    | .next t => .next (relay { q with right := t })
    | .fault r => .fault r
    | .refused r => .refused r

/-- A schedule: the sides step one after the other in the order listed. -/
def pairRun : List Side → Pair → Host.Outcome Pair Fault Refusal
  | [], q => .next q
  | w :: ws, q =>
    match pairStep w q with
    | .next q' => pairRun ws q'
    | .fault r => .fault r
    | .refused r => .refused r

end Sys2Proof.Machine
end

