-- ==== Sys2Proof/Safety.lean ====
section
/-! DEFINITION. The terms the statements use: what every reachable state satisfies, what an instruction leaves alone, and
what a failure looks like. Written from the spec's rules, not from the meanings. -/

namespace Sys2Proof.Machine

/-! ### The invariant -/

/-- The acknowledgment `CR.SendAck` builds, which `CR.SendFin` reuses as its template (spec/43 R167, R168; spec/70 R227). -/
def ackTemplate (s : State) : Segment :=
  stamp
    { sport := s.localPort, dport := s.peerPort, seq := s.localSeq, ack := s.peerSeq + 1#32, ctrl := 0x6010#16, win := 0#16,
      csum := 0#16, urg := 0#16, opt := 0#32 }

/-- What holds at reset and after every step. -/
structure Inv (s : State) : Prop where
  /-- `BUF` is in canonical form (log entry 19) -/
  bufCanonical : Memory.wf s.buf = true
  /-- `LOCAL_SEQ` is below `ISN_MOD` (spec/10 R24; spec/70 R230) -/
  localBelow : s.localSeq.toNat < 0xFFFFFFF0
  /-- a running exchange stands at a step of its machine (spec/10 R26) -/
  stepNamed : s.status.run = .busy → stepAt s.op s.role s.stepIx ≠ none
  /-- a failure is recorded exactly in `FAILED` (spec/10 R28, R29; spec/60 R190) -/
  failedIff : s.status.run = .failed ↔ s.err.kind ≠ .none
  /-- `ERR` is all zero where no failure is recorded (spec/10 R29) -/
  errBlank : s.err.kind = .none → s.err = ErrReg.zero
  /-- a recorded failure names the exchange and the step that failed (spec/60 R191) -/
  errWhere : s.status.run = .failed → s.err.op = s.op ∧ s.err.role = s.role ∧ s.err.stepIx = s.stepIx
  /-- before `CR.SendFin`, `SEG` holds the acknowledgment just sent (spec/70 R227) -/
  template : s.status.run = .busy → s.op = .closeEx → s.role = .responder → s.stepIx = .s2 → s.seg = ackTemplate s

/-! ### What stays the same -/

/-- The role state and the ports are unchanged (spec/40 R121). -/
def SameExchange (s t : State) : Prop :=
  t.localSeq = s.localSeq ∧ t.peerSeq = s.peerSeq ∧ t.stepIx = s.stepIx ∧ t.op = s.op ∧ t.role = s.role ∧
    t.localPort = s.localPort ∧ t.peerPort = s.peerPort

/-- `OP`, `ROLE` and the ports are unchanged: read-only during an exchange (spec/10 R27). -/
def SameSetup (s t : State) : Prop :=
  t.op = s.op ∧ t.role = s.role ∧ t.localPort = s.localPort ∧ t.peerPort = s.peerPort

/-- Every byte of `BUF` reads as before. -/
def SameBytes (s t : State) : Prop := ∀ a, Memory.read t.buf a = Memory.read s.buf a

/-- The conditions of the channel are unchanged: no step of the block sets or clears one (spec/20 R58). -/
def SameConditions (s t : State) : Prop :=
  t.env.rxDown = s.env.rxDown ∧ t.env.txDown = s.env.txDown ∧ t.env.txStalled = s.env.txStalled

/-- The channel as the environment holds it is unchanged: both queues, the conditions, the choices still to come. -/
def SameChannel (s t : State) : Prop :=
  t.env.rxq = s.env.rxq ∧ t.env.txq = s.env.txq ∧ SameConditions s t ∧
    t.env.recvChoices = s.env.recvChoices ∧ t.env.sendChoices = s.env.sendChoices

/-- Every field of the segment but the control word is unchanged. -/
def SameButCtrl (g h : Segment) : Prop :=
  h.sport = g.sport ∧ h.dport = g.dport ∧ h.seq = g.seq ∧ h.ack = g.ack ∧ h.win = g.win ∧ h.csum = g.csum ∧ h.urg = g.urg ∧
    h.opt = g.opt

/-- Every field of the segment but the checksum is unchanged. -/
def SameButCsum (g h : Segment) : Prop :=
  h.sport = g.sport ∧ h.dport = g.dport ∧ h.seq = g.seq ∧ h.ack = g.ack ∧ h.ctrl = g.ctrl ∧ h.win = g.win ∧ h.urg = g.urg ∧
    h.opt = g.opt

/-- What an accepted unit operation does to `STATUS`: `cmd_err` is cleared and `state` stays (spec/30 R93; spec/10 R28). -/
def AcceptedStatus (s t : State) : Prop := t.status.run = s.status.run ∧ t.status.cmdErr = false

/-! ### What the steps build and report -/

/-- A command, not a segment kind of the wired sequence. -/
def isCommand : Instr → Bool
  | .create _ _ => true
  | .setFlag _ => true
  | .clearFlag _ => true
  | .checkFlag _ => true
  | .getOff => true
  | .getRsv => true
  | .pack => true
  | .unpack => true
  | .report => true
  | .checksum => true
  | .stamp => true
  | .verify => true
  | .openI _ _ => true
  | .openR _ _ => true
  | .closeI _ _ => true
  | .closeR _ _ => true
  | .segSyn => false
  | .segSynAck => false
  | .segAck => false
  | .segFin => false

/-- The nine codec operations (spec/40 R110 to R118). -/
def isCodec : Instr → Bool
  | .create _ _ => true
  | .setFlag _ => true
  | .clearFlag _ => true
  | .checkFlag _ => true
  | .getOff => true
  | .getRsv => true
  | .pack => true
  | .unpack => true
  | .report => true
  | .checksum => false
  | .stamp => false
  | .verify => false
  | .openI _ _ => false
  | .openR _ _ => false
  | .closeI _ _ => false
  | .closeR _ _ => false
  | .segSyn => false
  | .segSynAck => false
  | .segAck => false
  | .segFin => false

/-- The segment `g` as a send step of the instance `s` builds it: its ports, the given numbers and control word, the
placeholders 0, and the stamp (spec/30 R87, R89). -/
def Built (s : State) (seq ack : Word) (ctrl : Half) (g : Segment) : Prop :=
  g.sport = s.localPort ∧ g.dport = s.peerPort ∧ g.seq = seq ∧ g.ack = ack ∧ g.ctrl = ctrl ∧ g.win = 0#16 ∧ g.urg = 0#16 ∧
    g.opt = 0#32 ∧ g.csum = checksum g

/-- A failure of the step the instance `s` stood at, as `ERR` and `STATUS` of `t` record it (spec/60 R191): the kind, the
flag, the two values; the channel details are 0. -/
def FailedCheck (s t : State) (kind : ErrKind) (flag : FlagId) (expected observed : Word) : Prop :=
  t.status.run = .failed ∧ t.err = ⟨kind, s.op, s.role, s.stepIx, flag, .send, false, false, false, expected, observed⟩ ∧
    t.stepIx = s.stepIx ∧ t.peerSeq = s.peerSeq

/-- A `ShortIo` failure of the step the instance `s` stood at (spec/60 R181, R191). -/
def FailedIo (s t : State) (dir : IoDir) (chanErr disc : Bool) (observed : Word) : Prop :=
  t.status.run = .failed ∧ t.err = ⟨.shortIo, s.op, s.role, s.stepIx, .fin, dir, chanErr, disc, false, 24#32, observed⟩ ∧
    t.stepIx = s.stepIx

/-- The segment and the byte string a receive step finds when `ChanRecv(24)` returns `r` (spec/20 R72; `WIRE_ORDER = LE`):
field by field, the lowest byte first. -/
def WireSegment (r : List Byte) (g : Segment) : Prop :=
  g.sport.toNat = (r.getD 0 0#8).toNat + 256 * (r.getD 1 0#8).toNat ∧
  g.dport.toNat = (r.getD 2 0#8).toNat + 256 * (r.getD 3 0#8).toNat ∧
  g.seq.toNat = (r.getD 4 0#8).toNat + 256 * (r.getD 5 0#8).toNat + 65536 * (r.getD 6 0#8).toNat + 16777216 * (r.getD 7 0#8).toNat ∧
  g.ack.toNat = (r.getD 8 0#8).toNat + 256 * (r.getD 9 0#8).toNat + 65536 * (r.getD 10 0#8).toNat + 16777216 * (r.getD 11 0#8).toNat ∧
  g.ctrl.toNat = (r.getD 12 0#8).toNat + 256 * (r.getD 13 0#8).toNat ∧
  g.win.toNat = (r.getD 14 0#8).toNat + 256 * (r.getD 15 0#8).toNat ∧
  g.csum.toNat = (r.getD 16 0#8).toNat + 256 * (r.getD 17 0#8).toNat ∧
  g.urg.toNat = (r.getD 18 0#8).toNat + 256 * (r.getD 19 0#8).toNat ∧
  g.opt.toNat = (r.getD 20 0#8).toNat + 256 * (r.getD 21 0#8).toNat + 65536 * (r.getD 22 0#8).toNat + 16777216 * (r.getD 23 0#8).toNat

/-- Nothing outside is pending, so that the block takes a step of its own (log entry 8). -/
def Free (s : State) : Prop := s.env.inputs = []

/-- The step from `s` is a step of the block itself, taken at `x`: nothing outside is pending, or the block is let take one
by the event `advance`, which is then used up (log entry 8). -/
def OwnTurn (s x : State) : Prop :=
  (s.env.inputs = [] ∧ x = s) ∨
    ∃ rest, s.env.inputs = .advance :: rest ∧ x = { s with env := { s.env with inputs := rest } }

/-- The flag `f` of the segment is set (spec/10 R31). -/
def flagSet (g : Segment) (f : FlagId) : Bool := g.ctrl.getLsbD f.pos

/-- The six flags of the segment, bits 5:0, as `ERR.observed` shows them (spec/60 R185). -/
def flagBits (g : Segment) : Word := BitVec.ofNat 32 (g.ctrl.toNat % 64)

/-- A 16-bit value as `ERR` shows it (spec/30 R86 (f)). -/
def asWord (v : Half) : Word := BitVec.ofNat 32 v.toNat

/-- The receive step `e` is at hand and `ChanRecv(24)` has an outcome (spec/20 R60). -/
def AtReceive (s : State) (e : ExStep) : Prop := activeStep s = some e ∧ recvBlocked s = false

/-- The send step `e` is at hand and `ChanSend` has an outcome (spec/20 R59). -/
def AtSend (s : State) (e : ExStep) : Prop := activeStep s = some e ∧ sendBlocked s = false

/-- The call of the channel that the step `e` makes has no outcome yet (spec/70 R225). -/
def stepBlocked (e : ExStep) (s : State) : Bool := if (builtControl e).isSome then sendBlocked s else recvBlocked s

/-- The instance has no step: it runs no exchange (spec/70 R221), or its channel call is blocked (spec/70 R225). -/
def HasNoStep (s : State) : Prop := s.status.run ≠ .busy ∨ ∃ e, activeStep s = some e ∧ stepBlocked e s = true

/-- What no receive step touches, whatever it receives: the other direction, the random source, the conditions, the events
still to come, and the registers spec/10 R39 gives it no write to; one choice of the environment is used up. -/
def ReceiveFrame (s t : State) : Prop :=
  t.env.txq = s.env.txq ∧ SameConditions s t ∧ t.env.sendChoices = s.env.sendChoices ∧
    t.env.recvChoices = s.env.recvChoices.tail ∧ t.env.draws = s.env.draws ∧ t.env.inputs = s.env.inputs ∧
    t.localSeq = s.localSeq ∧ SameSetup s t ∧ t.res = s.res ∧ t.status.cmdErr = s.status.cmdErr

/-- What every receive step that got the 24 bytes `r` does before its first check, and no check undoes (spec/20 R72): `SEG`
and `BUF` hold the segment, the record is out, the bytes are consumed and the rest keep waiting in order (spec/20 R61). -/
def Received (s t : State) (r : List Byte) : Prop :=
  WireSegment r t.seg ∧ Memory.bytes t.buf = r ∧ Memory.wf t.buf = true ∧
    t.env.trace = s.env.trace ++ [⟨.rx, s.op, s.role, s.stepIx, report t.seg⟩] ∧
    s.env.rxq = r ++ t.env.rxq ∧ ReceiveFrame s t

/-- What a receive step does when `ChanRecv(24)` did not return 24 bytes (spec/20 R72; spec/60 R181): `ShortIo`, and nothing
of the segment is looked at, traced or kept. The bytes returned are consumed (spec/20 R61); of an `error`, the spec does not
say how many are, and the model takes the environment's choice (log entry 21). -/
def ShortReceive (s t : State) : Prop :=
  (recvAnswer s = .error →
    FailedIo s t .recv true false 0#32 ∧ ∃ k, recvChoice s = .error k ∧ t.env.rxq = s.env.rxq.drop k) ∧
  (∀ r, recvAnswer s = .bytes r → r.length ≠ 24 →
    FailedIo s t .recv false (r.length == 0) (BitVec.ofNat 32 r.length) ∧ s.env.rxq = r ++ t.env.rxq) ∧
  ((∀ r, recvAnswer s = .bytes r → r.length ≠ 24) →
    t.seg = s.seg ∧ t.peerSeq = s.peerSeq ∧ t.env.trace = s.env.trace ∧ Memory.wf t.buf = true ∧ ReceiveFrame s t)

/-- What every send step does whose channel made the choice `c` (spec/20 R71): `BUF` holds the image of `SEG`, the record is
out, the bytes the choice lets through are in the queue, one choice of the environment is used up, and what no send step writes
is unchanged. -/
def Transmitted (s t : State) (c : SendChoice) : Prop :=
  WireSegment (Memory.bytes t.buf) t.seg ∧ Memory.wf t.buf = true ∧
    t.env.trace = s.env.trace ++ [⟨.tx, s.op, s.role, s.stepIx, report t.seg⟩] ∧
    t.env.txq = s.env.txq ++ sendEntered (Memory.bytes t.buf) c ∧ t.env.rxq = s.env.rxq ∧ SameConditions s t ∧
    t.env.recvChoices = s.env.recvChoices ∧ t.env.sendChoices = s.env.sendChoices.tail ∧ t.env.inputs = s.env.inputs ∧
    t.peerSeq = s.peerSeq ∧ SameSetup s t ∧ t.res = s.res ∧ t.status.cmdErr = s.status.cmdErr

/-- How a send step ends whose channel made the choice `c`: it succeeds where `ChanSend` answers 24, else it raises
`ShortIo` (spec/20 R71; spec/60 R181). -/
def SendOutcome (s t : State) (c : SendChoice) (success : Prop) : Prop :=
  (sendAnswer c = .count 24 → success) ∧ (sendAnswer c = .error → FailedIo s t .send true false 0#32) ∧
    (∀ n, sendAnswer c = .count n → n ≠ 24 → FailedIo s t .send false false (BitVec.ofNat 32 n))

/-- A send step succeeded and was the last (spec/42 R149). -/
def SendCompletes (s t : State) : Prop := t.status.run = .done ∧ t.stepIx = s.stepIx ∧ t.err = s.err

/-- A step passed and the exchange goes on at `n` (spec/42 R149). -/
def GoesOn (s t : State) (n : StepIx) : Prop := t.status.run = .busy ∧ t.stepIx = n ∧ t.err = s.err

/-- A receive step passed every check and was the last (spec/42 R149). -/
def Completes (s t : State) : Prop :=
  t.status.run = .done ∧ t.stepIx = s.stepIx ∧ t.err = s.err ∧ t.peerSeq = s.peerSeq

/-- Which kinds a step can raise (spec/60 R186). -/
def mayRaise : ExStep → List ErrKind
  | .oiSendRequest => [.shortIo]
  | .oiAwaitGrant => [.shortIo, .acknowledgmentMismatch, .flagMismatch, .checksumMismatch]
  | .oiSendAck => [.shortIo]
  | .orAwaitRequest => [.shortIo, .checksumMismatch, .flagMismatch]
  | .orSendGrant => [.shortIo]
  | .orAwaitAck => [.shortIo, .checksumMismatch, .sequenceMismatch, .acknowledgmentMismatch, .flagMismatch]
  | .ciSendFin => [.shortIo]
  | .ciAwaitAck1 => [.shortIo, .checksumMismatch, .acknowledgmentMismatch, .flagMismatch]
  | .ciAwaitFin => [.shortIo, .checksumMismatch, .acknowledgmentMismatch, .flagMismatch]
  | .ciSendAck2 => [.shortIo]
  | .crAwaitFin => [.shortIo, .checksumMismatch, .acknowledgmentMismatch, .flagMismatch]
  | .crSendAck => [.shortIo]
  | .crSendFin => [.shortIo]
  | .crAwaitAck => [.shortIo, .checksumMismatch, .sequenceMismatch, .acknowledgmentMismatch, .flagMismatch]

/-- The last step of its machine (spec/10 R26). -/
def lastStep : ExStep → Bool
  | .oiSendRequest => false
  | .oiAwaitGrant => false
  | .oiSendAck => true
  | .orAwaitRequest => false
  | .orSendGrant => false
  | .orAwaitAck => true
  | .ciSendFin => false
  | .ciAwaitAck1 => false
  | .ciAwaitFin => false
  | .ciSendAck2 => true
  | .crAwaitFin => false
  | .crSendAck => false
  | .crSendFin => false
  | .crAwaitAck => true

/-- The index after a value of `STEP` (spec/10 R26). -/
def StepIx.succ? : StepIx → Option StepIx
  | .s0 => some .s1
  | .s1 => some .s2
  | .s2 => some .s3
  | .s3 => none

/-! ### The well-behaved channel -/

/-- Nothing is pending outside, nothing is in flight, nothing is `down` or stalled, and the environment has made no choice. -/
def Quiet (s : State) : Prop :=
  s.env.inputs = [] ∧ s.env.rxq = [] ∧ s.env.txq = [] ∧ s.env.rxDown = false ∧ s.env.txDown = false ∧
    s.env.txStalled = false ∧ s.env.recvChoices = [] ∧ s.env.sendChoices = []

/-- A step that answers a next state. -/
def Safe (o : Outcome) : Prop := ∃ t, o = .next t

end Sys2Proof.Machine
end

