-- ==== Sys2Proof/Certificates/Slice0/Obligations.lean ====
section
/-! DEFINITION. The statements for the provers. Each docstring names the rule it formalises; OBLIGATIONS.json lists them. -/

open Sys2Proof Sys2Proof.Machine

/-! ### Reset and the invariant -/

/-- spec/10 R37, spec/70 R220: the reset input puts every register to 0 (in the spec's own codes), abandons the exchange and
touches neither the channel, nor the random source, nor the trace; and `State.reset` is that state. -/
def Obligations.ResetZeroesEveryRegister : Prop :=
  ∀ (s : State) (rest : List Input), s.env.inputs = .reset :: rest →
    ∃ t, step s = .next t ∧ { t with env := Env.initial } = State.reset ∧
      t.seg = ⟨0#16, 0#16, 0#32, 0#32, 0#16, 0#16, 0#16, 0#16, 0#32⟩ ∧ (∀ a, Memory.read t.buf a = 0#8) ∧
      t.localSeq = 0#32 ∧ t.peerSeq = 0#32 ∧ stepCode t.stepIx = 0#2 ∧ opCode t.op = 0#1 ∧ roleCode t.role = 0#1 ∧
      t.localPort = 0#16 ∧ t.peerPort = 0#16 ∧ statusWord t.status = 0#3 ∧ t.res = 0#32 ∧
      errKindCode t.err.kind = 0#3 ∧ opCode t.err.op = 0#1 ∧ roleCode t.err.role = 0#1 ∧ stepCode t.err.stepIx = 0#2 ∧
      flagCode t.err.flag = 0#3 ∧ dirCode t.err.dir = 0#1 ∧ t.err.chanErr = false ∧ t.err.disc = false ∧
      t.err.unexpected = false ∧ t.err.expected = 0#32 ∧ t.err.observed = 0#32 ∧
      SameChannel s t ∧ t.env.draws = s.env.draws ∧ t.env.trace = s.env.trace ∧ t.env.inputs = rest

/-- The invariant holds right after reset (spec/10 R37, R26, R28, R29). -/
def Obligations.InvariantHoldsAtReset : Prop := Inv State.reset

/-- Every step keeps the invariant: `BUF` canonical, `LOCAL_SEQ` below `ISN_MOD`, a running exchange at a step of its
machine, `ERR` set exactly in `FAILED` and naming the step that failed, the template of the close Responder in `SEG`. -/
def Obligations.EveryStepKeepsInvariant : Prop :=
  ∀ s t : State, Inv s → step s = .next t → Inv t

/-- From a state that meets the invariant a step always answers a next state (no fault, no refusal). -/
def Obligations.StepFromInvariantNeverStops : Prop := ∀ s : State, Inv s → Safe (step s)

/-! ### Decoding -/

/-- Decoding the encoding of any instruction gives it back (spec/30 R93, R87). -/
def Obligations.DecodeEncodeRoundTrip : Prop := ∀ i : Instr, decode (encode i) = .ok i

/-- The decoder, written from the operation map, accepts exactly the words that spec/30 R95 (a) to (d) and R87 leave. -/
def Obligations.DecodeAcceptsExactlyTheLegalWords : Prop :=
  ∀ e : Encoded, (∃ i, decode e = .ok i) ↔ e.wellFormed = true

/-- Each legal word has one meaning whose encoding is that word again: no bit of a command word or a control word is
dropped (spec/30 R92, R93, R87). The data operands are kept by the operations that read them (spec/30 R94). -/
def Obligations.DecodedWordKeepsItsBits : Prop :=
  (∀ (w : Byte) (a b : Half) (i : Instr), decode (.cmd w a b) = .ok i →
    ∃ a' b', encode i = .cmd w a' b' ∧ (cmdOpc w = 0 ∨ cmdOpc w = 12 ∨ cmdOpc w = 13 → a' = a ∧ b' = b)) ∧
  (∀ (w : Half) (i : Instr), decode (.ctrl w) = .ok i → encode i = .ctrl w)

/-- Words written out from spec/30 R93 and R87, one of each family and the operand forms, decode to what they stand for. -/
def Obligations.WrittenOutWordsDecode : Prop :=
  decode (.cmd 0x00#8 40000#16 8080#16) = .ok (.create 40000#16 8080#16) ∧ decode (.cmd 0x11#8 0#16 0#16) = .ok (.setFlag .syn) ∧
  decode (.cmd 0x25#8 0#16 0#16) = .ok (.clearFlag .urg) ∧ decode (.cmd 0x34#8 0#16 0#16) = .ok (.checkFlag .ack) ∧
  decode (.cmd 0x70#8 0#16 0#16) = .ok .unpack ∧ decode (.cmd 0xA0#8 0#16 0#16) = .ok .stamp ∧
  decode (.cmd 0xC1#8 8080#16 40000#16) = .ok (.openR 8080#16 40000#16) ∧
  decode (.cmd 0xD0#8 40000#16 8080#16) = .ok (.closeI 40000#16 8080#16) ∧ decode (.ctrl 0x6012#16) = .ok .segSynAck ∧
  decode (.cmd 0xE0#8 0#16 0#16) = .rejected .reservedOpcode ∧ decode (.cmd 0x16#8 0#16 0#16) = .rejected .notAFlagId ∧
  decode (.cmd 0xC2#8 0#16 0#16) = .rejected .notARole ∧ decode (.cmd 0x41#8 0#16 0#16) = .rejected .operandNotZero

/-! ### What a step runs -/

/-- A pending command that decodes to `i` is taken from the port, and the step is `exec i` (spec/30 R92, R93). -/
def Obligations.StepRunsTheDecodedCommand : Prop :=
  ∀ (s : State) (w : Byte) (a b : Half) (rest : List Input) (i : Instr),
    s.env.inputs = .command w a b :: rest → decode (.cmd w a b) = .ok i →
    step s = exec i { s with env := { s.env with inputs := rest } }

/-- A step of the block itself is the step the wired sequence names (spec/10 R26; spec/20 R67): at a send step, `exec` of the
segment kind whose control word the sequence names (spec/10 R32; spec/30 R87); at a receive step, which has no instruction
word, that receive step. -/
def Obligations.StepRunsTheWiredStep : Prop :=
  ∀ (u s : State) (e : ExStep), OwnTurn u s → activeStep s = some e →
    (∀ w, builtControl e = some w → ∃ i, decode (.ctrl w) = .ok i ∧ step u = exec i s) ∧
    (builtControl e = none → step u = .next (receiveStep decided e s))

/-- spec/60 R194: an illegal command word, and any command while `BUSY`, is refused, which sets `STATUS.cmd_err` and changes
nothing else; a command that is accepted clears it. -/
def Obligations.RefusedCommandChangesOnlyCmdErr : Prop :=
  (∀ (s : State) (w : Byte) (a b : Half) (rest : List Input) (r : Reject),
    s.env.inputs = .command w a b :: rest → decode (.cmd w a b) = .rejected r →
    step s = .next { s with status := ⟨s.status.run, true⟩, env := { s.env with inputs := rest } }) ∧
  (∀ (s : State) (i : Instr), isCommand i = true → s.status.run = .busy →
    exec i s = .next { s with status := ⟨.busy, true⟩ }) ∧
  (∀ (s : State) (i : Instr), isCommand i = true → s.status.run ≠ .busy →
    ∃ t, exec i s = .next t ∧ t.status.cmdErr = false)

/-! ### The codec -/

/-- spec/40 R110: `CREATE` makes one draw and leaves a fresh segment whose sequence number is the draw modulo `0xFFFFFFF0`;
every flag is clear, `hlen` is 6, and `seq + 1` does not wrap. Frame: nothing but `SEG`, `STATUS.cmd_err` and the draw. -/
def Obligations.CreateBuildsAFreshSegment : Prop :=
  ∀ (s : State) (sp dp : Half), s.status.run ≠ .busy →
    ∃ t, exec (.create sp dp) s = .next t ∧
      t.seg.sport = sp ∧ t.seg.dport = dp ∧ t.seg.seq.toNat = (drawValue s).toNat % 0xFFFFFFF0 ∧
      (t.seg.seq + 1#32).toNat = t.seg.seq.toNat + 1 ∧ t.seg.ack = 0#32 ∧ t.seg.ctrl = 0x6000#16 ∧
      (∀ f, flagSet t.seg f = false) ∧ ctrlHlen t.seg.ctrl = 6#4 ∧ ctrlReserved t.seg.ctrl = 0#6 ∧
      t.seg.win = 0#16 ∧ t.seg.csum = 0#16 ∧ t.seg.urg = 0#16 ∧ t.seg.opt = 0#32 ∧
      t.env.draws = s.env.draws.tail ∧
      SameBytes s t ∧ SameExchange s t ∧ AcceptedStatus s t ∧ t.err = s.err ∧ t.res = s.res ∧ SameChannel s t ∧
      t.env.trace = s.env.trace ∧ t.env.inputs = s.env.inputs

/-- spec/40 R111: `SETFLAG f` sets bit `f` of the control word and changes no other bit of it, no other field of `SEG` (the
checksum included, so that a stamped segment no longer verifies once a bit has changed) and nothing else but `STATUS.cmd_err`; an
operand above 5 is no `SETFLAG`; setting twice is setting once. -/
def Obligations.SetFlagSetsExactlyOneBit : Prop :=
  (∀ f, decode (.cmd (0x10#8 ||| BitVec.ofNat 8 f.pos) 0#16 0#16) = .ok (.setFlag f)) ∧
  (∀ (w : Byte) (a b : Half), cmdOpc w = 1 → 6 ≤ cmdOpd w → decode (.cmd w a b) = .rejected .notAFlagId) ∧
  (∀ (f : FlagId) (g : Segment), setFlag f (setFlag f g) = setFlag f g) ∧
  (∀ (f : FlagId) (g : Segment), verify g = true → flagSet g f = false → verify (setFlag f g) = false) ∧
  ∀ (s : State) (f : FlagId), s.status.run ≠ .busy →
    ∃ t, exec (.setFlag f) s = .next t ∧
      (∀ k, k < 16 → t.seg.ctrl.getLsbD k = (decide (k = f.pos) || s.seg.ctrl.getLsbD k)) ∧ SameButCtrl s.seg t.seg ∧
      SameBytes s t ∧ SameExchange s t ∧ AcceptedStatus s t ∧ t.err = s.err ∧ t.res = s.res ∧ t.env = s.env

/-- spec/40 R112: `CLEARFLAG f` clears bit `f` of the control word and changes no other bit of it, no other field of `SEG`
and nothing else but `STATUS.cmd_err`; clearing a clear flag changes nothing of `SEG`. -/
def Obligations.ClearFlagClearsExactlyOneBit : Prop :=
  (∀ f, decode (.cmd (0x20#8 ||| BitVec.ofNat 8 f.pos) 0#16 0#16) = .ok (.clearFlag f)) ∧
  (∀ (f : FlagId) (g : Segment), flagSet g f = false → clearFlag decided f g = g) ∧
  ∀ (s : State) (f : FlagId), s.status.run ≠ .busy →
    ∃ t, exec (.clearFlag f) s = .next t ∧
      (∀ k, k < 16 → t.seg.ctrl.getLsbD k = (!decide (k = f.pos) && s.seg.ctrl.getLsbD k)) ∧ SameButCtrl s.seg t.seg ∧
      SameBytes s t ∧ SameExchange s t ∧ AcceptedStatus s t ∧ t.err = s.err ∧ t.res = s.res ∧ t.env = s.env

/-- spec/40 R113: `CHECKFLAG f` leaves 1 in `RES` if bit `f` of the control word is set, else 0, and changes nothing else but
`STATUS.cmd_err`; the answer depends on bit `f` alone. -/
def Obligations.CheckFlagReadsExactlyOneBit : Prop :=
  (∀ f, decode (.cmd (0x30#8 ||| BitVec.ofNat 8 f.pos) 0#16 0#16) = .ok (.checkFlag f)) ∧
  (∀ (f : FlagId) (g : Segment), checkFlag f g = g.ctrl.getLsbD f.pos) ∧
  ∀ (s : State) (f : FlagId), s.status.run ≠ .busy →
    ∃ t, exec (.checkFlag f) s = .next t ∧ t.res = (if s.seg.ctrl.getLsbD f.pos then 1#32 else 0#32) ∧
      t.seg = s.seg ∧ SameBytes s t ∧ SameExchange s t ∧ AcceptedStatus s t ∧ t.err = s.err ∧ t.env = s.env

/-- spec/40 R114: `GETOFF` leaves the top four bits of the control word in `RES`, whatever they hold. -/
def Obligations.GetOffReadsTheTopFourBits : Prop :=
  decode (.cmd 0x40#8 0#16 0#16) = .ok .getOff ∧
  ∀ s : State, s.status.run ≠ .busy →
    ∃ t, exec .getOff s = .next t ∧ t.res.toNat = s.seg.ctrl.toNat / 4096 ∧
      t.seg = s.seg ∧ SameBytes s t ∧ SameExchange s t ∧ AcceptedStatus s t ∧ t.err = s.err ∧ t.env = s.env

/-- spec/40 R115: `GETRSV` leaves bits 11:6 of the control word in `RES`; they are 0 in every control word a send step builds. -/
def Obligations.GetRsvReadsTheSixReservedBits : Prop :=
  decode (.cmd 0x50#8 0#16 0#16) = .ok .getRsv ∧
  (∀ (e : ExStep) (w : Half), builtControl e = some w → ctrlReserved w = 0#6) ∧
  ∀ s : State, s.status.run ≠ .busy →
    ∃ t, exec .getRsv s = .next t ∧ t.res.toNat = s.seg.ctrl.toNat / 64 % 64 ∧
      t.seg = s.seg ∧ SameBytes s t ∧ SameExchange s t ∧ AcceptedStatus s t ∧ t.err = s.err ∧ t.env = s.env

/-- spec/40 R116, spec/30 R80 (`WIRE_ORDER = LE`): `PACK` stores the nine fields of `SEG` in the 24 bytes of `BUF`, the lowest
byte of each field first, the checksum field as it is; `SEG` is unchanged. -/
def Obligations.PackStoresTheLittleEndianImage : Prop :=
  decode (.cmd 0x60#8 0#16 0#16) = .ok .pack ∧
  ∀ s : State, s.status.run ≠ .busy →
    ∃ t, exec .pack s = .next t ∧ WireSegment (Memory.bytes t.buf) s.seg ∧ Memory.wf t.buf = true ∧
      t.seg = s.seg ∧ SameExchange s t ∧ AcceptedStatus s t ∧ t.err = s.err ∧ t.res = s.res ∧ t.env = s.env

/-- spec/40 R117, spec/30 R91: `UNPACK` loads the nine fields from whatever 24 bytes `BUF` holds; `BUF` is unchanged. -/
def Obligations.UnpackLoadsTheLittleEndianFields : Prop :=
  decode (.cmd 0x70#8 0#16 0#16) = .ok .unpack ∧
  ∀ s : State, s.status.run ≠ .busy →
    ∃ t, exec .unpack s = .next t ∧ WireSegment (Memory.bytes s.buf) t.seg ∧
      SameBytes s t ∧ SameExchange s t ∧ AcceptedStatus s t ∧ t.err = s.err ∧ t.res = s.res ∧ t.env = s.env

/-- spec/40 R119 (5), spec/30 R91: `pack` and `unpack` are inverse to each other, in either byte order: on every segment, and
on every 24-byte string. -/
def Obligations.CodecIsABijection : Prop :=
  ∀ o : WireOrder, (∀ g : Segment, unpack o (pack o g) = g) ∧
    (∀ m : Memory, Memory.wf m = true → pack o (unpack o m) = m) ∧
    (∀ bs : List Byte, bs.length = 24 → Memory.bytes (pack o (unpack o (Memory.ofBytes bs))) = bs)

/-- spec/40 R119 (1) to (4): flag isolation, set and clear, what they leave alone, and how they compose. -/
def Obligations.FlagLawsOfTheCodec : Prop :=
  ∀ (g : Segment) (f h : FlagId),
    (f ≠ h → checkFlag h (setFlag f g) = checkFlag h g ∧ checkFlag h (clearFlag decided f g) = checkFlag h g) ∧
    checkFlag f (setFlag f g) = true ∧ checkFlag f (clearFlag decided f g) = false ∧
    ctrlHlen (setFlag f g).ctrl = ctrlHlen g.ctrl ∧ ctrlReserved (setFlag f g).ctrl = ctrlReserved g.ctrl ∧
    ctrlHlen (clearFlag decided f g).ctrl = ctrlHlen g.ctrl ∧ ctrlReserved (clearFlag decided f g).ctrl = ctrlReserved g.ctrl ∧
    SameButCtrl g (setFlag f g) ∧ SameButCtrl g (clearFlag decided f g) ∧
    setFlag f (setFlag f g) = setFlag f g ∧ setFlag h (setFlag f g) = setFlag f (setFlag h g) ∧
    clearFlag decided f (clearFlag decided f g) = clearFlag decided f g ∧
    clearFlag decided h (clearFlag decided f g) = clearFlag decided f (clearFlag decided h g) ∧
    clearFlag decided f (setFlag f g) = clearFlag decided f g

/-- spec/40 R118, spec/60 R200: `REPORT` emits one record with the fields of `SEG`, its subfields and the names of its set
flags in ascending order; no register but `STATUS.cmd_err` changes. -/
def Obligations.ReportEmitsOneRecord : Prop :=
  decode (.cmd 0x80#8 0#16 0#16) = .ok .report ∧
  ∀ s : State, s.status.run ≠ .busy →
    ∃ t r, exec .report s = .next t ∧ t.env.trace = s.env.trace ++ [⟨.rpt, s.op, s.role, s.stepIx, r⟩] ∧
      r.sport = s.seg.sport ∧ r.dport = s.seg.dport ∧ r.seq = s.seg.seq ∧ r.ack = s.seg.ack ∧ r.csum = s.seg.csum ∧
      r.win = s.seg.win ∧ r.urg = s.seg.urg ∧ r.opt = s.seg.opt ∧
      r.offset.toNat = s.seg.ctrl.toNat / 4096 ∧ r.reserved.toNat = s.seg.ctrl.toNat / 64 % 64 ∧
      r.flags.toNat = s.seg.ctrl.toNat % 64 ∧
      r.names = (if flagSet s.seg .fin then ["FIN"] else []) ++ (if flagSet s.seg .syn then ["SYN"] else []) ++
        (if flagSet s.seg .rst then ["RST"] else []) ++ (if flagSet s.seg .psh then ["PSH"] else []) ++
        (if flagSet s.seg .ack then ["ACK"] else []) ++ (if flagSet s.seg .urg then ["URG"] else []) ∧
      t.seg = s.seg ∧ SameBytes s t ∧ SameExchange s t ∧ AcceptedStatus s t ∧ t.err = s.err ∧ t.res = s.res ∧
      SameChannel s t ∧ t.env.draws = s.env.draws ∧ t.env.inputs = s.env.inputs

/-- spec/40 R121: no codec operation touches the channel, the role state, the ports, `STATUS.state` or `ERR`; `CREATE` is the only one
that consults the environment (one draw) and `REPORT` the only one that emits to it (one record). -/
def Obligations.CodecOperationsTouchNothingElse : Prop :=
  ∀ (s t : State) (i : Instr), isCodec i = true → exec i s = .next t →
    SameChannel s t ∧ SameExchange s t ∧ t.status.run = s.status.run ∧ t.err = s.err ∧ t.env.inputs = s.env.inputs ∧
    ((∀ a b, i ≠ .create a b) → t.env.draws = s.env.draws ∧ t.env.free = s.env.free) ∧
    (i ≠ .report → t.env.trace = s.env.trace) ∧
    (s.status.run ≠ .busy → (∀ a b, i = .create a b → t.env = (drawTaken s).env) ∧
      (i = .report → t.env.trace = s.env.trace ++ [⟨.rpt, s.op, s.role, s.stepIx, report s.seg⟩]))

/-! ### The checksum -/

/-- spec/41 R131: the checksum over the words of the wire image is the checksum over the fields, under either byte order. -/
def Obligations.ChecksumByteFormEqualsFieldForm : Prop :=
  ∀ (o : WireOrder) (g : Segment), checksumImage o g = checksum g

/-- spec/41 R130: `CHECKSUM` leaves in `RES` the complement of the twice-folded sum of the twelve words of the wire image, the
checksum's own word taken as 0; the accumulator never truncates; the answer does not depend on the checksum field, is 0xFFFF for
the segment with every bit 0 and 0 for the one with every bit 1; nothing else changes but `STATUS.cmd_err`, `BUF` and `SEG.csum`
included. -/
def Obligations.ChecksumCommandLeavesTheChecksumInRes : Prop :=
  decode (.cmd 0x90#8 0#16 0#16) = .ok .checksum ∧
  (∀ (g : Segment) (v : Half), checksumImage .le { g with csum := v } = checksumImage .le g) ∧
  (∀ g : Segment, accumulate ((List.range 12).map (imageWord .le (pack .le g))) = ((List.range 12).map (imageWord .le (pack .le g))).sum) ∧
  checksumImage .le ⟨0#16, 0#16, 0#32, 0#32, 0#16, 0#16, 0#16, 0#16, 0#32⟩ = 0xFFFF#16 ∧
  checksumImage .le ⟨0xFFFF#16, 0xFFFF#16, 0xFFFFFFFF#32, 0xFFFFFFFF#32, 0xFFFF#16, 0xFFFF#16, 0xFFFF#16, 0xFFFF#16, 0xFFFFFFFF#32⟩ = 0#16 ∧
  ∀ s : State, s.status.run ≠ .busy →
    ∃ t, exec .checksum s = .next t ∧ t.res.toNat = (checksumImage .le s.seg).toNat ∧
      (checksumImage .le s.seg).toNat =
        0xFFFF - fold (fold (accumulate ((List.range 12).map fun i => if i = 8 then 0 else memRead .le (pack .le s.seg) (2 * i) 2))) ∧
      t.seg = s.seg ∧ SameBytes s t ∧ SameExchange s t ∧ AcceptedStatus s t ∧ t.err = s.err ∧ t.env = s.env

/-- spec/41 R136: the twice-folded value is 0 exactly for the sum 0, else the sum's representative in 1 to 0xFFFF modulo
0xFFFF; the checksum is its complement; it is 0xFFFF only for the sum 0, and 0 exactly for a positive multiple of 0xFFFF. -/
def Obligations.ChecksumRangeOfResults : Prop :=
  ∀ g : Segment,
    let S := (checksumWords g).sum
    let F := fold (fold (accumulate (checksumWords g)))
    (F = 0 ↔ S = 0) ∧ (S ≠ 0 → F = (S - 1) % 0xFFFF + 1) ∧ (checksum g).toNat = 0xFFFF - F ∧
      (checksum g = 0xFFFF#16 ↔ S = 0) ∧ (checksum g = 0#16 ↔ 0 < S ∧ S % 0xFFFF = 0)

/-- spec/41 R135: the words are 16 bits wide, the accumulator never overflows and holds at most 0xAFFF5, the folds have the
bounds given, and the second fold is needed. -/
def Obligations.AccumulatorAndFoldBounds : Prop :=
  (∀ g : Segment, (∀ w ∈ checksumWords g, w < 2 ^ 16) ∧ accumulate (checksumWords g) = (checksumWords g).sum ∧
    (checksumWords g).sum ≤ 0xAFFF5 ∧ fold (accumulate (checksumWords g)) ≤ 0x10008 ∧
    fold (fold (accumulate (checksumWords g))) ≤ 0xFFFF) ∧
  (∀ a : Nat, a < 2 ^ 32 → fold a ≤ 0x1FFFE ∧ fold (fold a) ≤ 0xFFFF) ∧
  (∃ g : Segment, 0xFFFF < fold (accumulate (checksumWords g)))

/-- spec/41 R132: `STAMP` writes the checksum of the segment into its checksum field and changes nothing else but
`STATUS.cmd_err`; stamping twice is stamping once; a stamped segment verifies; only the all-zero words give
0xFFFF, so no segment a send step builds does. -/
def Obligations.StampWritesTheChecksum : Prop :=
  decode (.cmd 0xA0#8 0#16 0#16) = .ok .stamp ∧
  (∀ g : Segment, stamp (stamp g) = stamp g ∧ verify (stamp g) = true ∧ SameButCsum g (stamp g) ∧
    ((stamp g).csum = 0xFFFF#16 ↔ ∀ w ∈ checksumWords g, w = 0) ∧ (g.ctrl ≠ 0#16 → (stamp g).csum ≠ 0xFFFF#16)) ∧
  (∀ (e : ExStep) (w : Half), builtControl e = some w → w ≠ 0#16) ∧
  ∀ s : State, s.status.run ≠ .busy →
    ∃ t, exec .stamp s = .next t ∧ t.seg.csum = checksum s.seg ∧ SameButCsum s.seg t.seg ∧
      SameBytes s t ∧ SameExchange s t ∧ AcceptedStatus s t ∧ t.err = s.err ∧ t.res = s.res ∧ t.env = s.env

/-- spec/41 R133: `VERIFY` leaves 1 in `RES` if the recomputed checksum equals the checksum field, else 0, and changes nothing
else but `STATUS.cmd_err`; where the eleven other words are all 0 only the field 0xFFFF verifies. -/
def Obligations.VerifyComparesTheChecksumField : Prop :=
  decode (.cmd 0xB0#8 0#16 0#16) = .ok .verify ∧
  (∀ g : Segment, (∀ w ∈ checksumWords g, w = 0) → (verify g = true ↔ g.csum = 0xFFFF#16)) ∧
  ∀ s : State, s.status.run ≠ .busy →
    ∃ t, exec .verify s = .next t ∧ t.res = (if checksum s.seg = s.seg.csum then 1#32 else 0#32) ∧
      t.seg = s.seg ∧ SameBytes s t ∧ SameExchange s t ∧ AcceptedStatus s t ∧ t.err = s.err ∧ t.env = s.env

/-- spec/41 R134 (2): a stamped segment with exactly one byte of its image changed does not verify, in either byte order. -/
def Obligations.OneChangedByteIsDetected : Prop :=
  ∀ (o : WireOrder) (g : Segment) (k : Nat) (v : Byte), k < 24 → v ≠ Memory.read (pack o (stamp g)) k →
    verify (unpack o (Memory.write (pack o (stamp g)) k v)) = false

/-- spec/41 R134 (3): a change that raises the sum of the summed words by 0xFFFF, as replacing a word 0 by 0xFFFF does, is not
detected unless all the words were 0, and then it is. -/
def Obligations.WholeWordChangeIsABlindSpot : Prop :=
  (∀ g h : Segment, (checksumWords h).sum = (checksumWords g).sum + 0xFFFF →
    (checksum h = checksum g ↔ ∃ w ∈ checksumWords g, w ≠ 0)) ∧
  (∀ g : Segment, g.urg = 0#16 → verify g = true → (∃ w ∈ checksumWords g, w ≠ 0) → verify { g with urg := 0xFFFF#16 } = true)

/-- spec/70 R234: exchanging the two ports, or the two halves of the sequence number, leaves the verdict of `verify`. -/
def Obligations.WordSwapsAreNotDetected : Prop :=
  ∀ g : Segment, verify { g with sport := g.dport, dport := g.sport } = verify g ∧
    verify { g with seq := g.seq.rotateLeft 16 } = verify g

/-- spec/70 R235: a stamped segment read in the other byte order still verifies. -/
def Obligations.ByteOrderMismatchStillVerifies : Prop :=
  ∀ g : Segment, verify (unpack .be (pack .le (stamp g))) = true ∧ verify (unpack .le (pack .be (stamp g))) = true

/-! ### Entry into an exchange -/

/-- spec/42 R140: `OPEN.I` and `OPEN.R` set the role state up and start the exchange; `SEG`, `BUF`, `RES` and the environment are
not touched. -/
def Obligations.OpenEntryStartsTheExchange : Prop :=
  ∀ (s : State) (lp pp : Half), s.status.run ≠ .busy →
    (∃ t, exec (.openI lp pp) s = .next t ∧ t.op = .openEx ∧ t.role = .initiator ∧ activeStep t = some .oiSendRequest ∧
      t.localPort = lp ∧ t.peerPort = pp ∧ t.localSeq = 0#32 ∧ t.peerSeq = 0#32 ∧ t.stepIx = .s0 ∧ t.err = ErrReg.zero ∧
      t.status = ⟨.busy, false⟩ ∧ t.seg = s.seg ∧ SameBytes s t ∧ t.res = s.res ∧ t.env = s.env) ∧
    (∃ t, exec (.openR lp pp) s = .next t ∧ t.op = .openEx ∧ t.role = .responder ∧ activeStep t = some .orAwaitRequest ∧
      t.localPort = lp ∧ t.peerPort = pp ∧ t.localSeq = 0#32 ∧ t.peerSeq = 0#32 ∧ t.stepIx = .s0 ∧ t.err = ErrReg.zero ∧
      t.status = ⟨.busy, false⟩ ∧ t.seg = s.seg ∧ SameBytes s t ∧ t.res = s.res ∧ t.env = s.env)

/-- spec/43 R160: the same for `CLOSE.I` and `CLOSE.R`; no open exchange need come before. -/
def Obligations.CloseEntryStartsTheExchange : Prop :=
  ∀ (s : State) (lp pp : Half), s.status.run ≠ .busy →
    (∃ t, exec (.closeI lp pp) s = .next t ∧ t.op = .closeEx ∧ t.role = .initiator ∧ activeStep t = some .ciSendFin ∧
      t.localPort = lp ∧ t.peerPort = pp ∧ t.localSeq = 0#32 ∧ t.peerSeq = 0#32 ∧ t.stepIx = .s0 ∧ t.err = ErrReg.zero ∧
      t.status = ⟨.busy, false⟩ ∧ t.seg = s.seg ∧ SameBytes s t ∧ t.res = s.res ∧ t.env = s.env) ∧
    (∃ t, exec (.closeR lp pp) s = .next t ∧ t.op = .closeEx ∧ t.role = .responder ∧ activeStep t = some .crAwaitFin ∧
      t.localPort = lp ∧ t.peerPort = pp ∧ t.localSeq = 0#32 ∧ t.peerSeq = 0#32 ∧ t.stepIx = .s0 ∧ t.err = ErrReg.zero ∧
      t.status = ⟨.busy, false⟩ ∧ t.seg = s.seg ∧ SameBytes s t ∧ t.res = s.res ∧ t.env = s.env)

/-! ### The send steps -/

/-- spec/42 R141, spec/20 R71: at `OI.SendRequest`, carrying out `seg.SYN` (the model's reading of that row, log entry 10) builds the request with a drawn sequence number, keeps it in `LOCAL_SEQ`, stamps and
sends it, and goes on to step 1; a send that does not take 24 bytes raises `ShortIo`, after the draw and the latch. -/
def Obligations.OpenRequestIsBuiltAndSent : Prop :=
  ∀ s : State, AtSend s .oiSendRequest →
    ∃ t, exec .segSyn s = .next t ∧ t.localSeq.toNat = (drawValue s).toNat % 0xFFFFFFF0 ∧
      Built s t.localSeq 0#32 0x6002#16 t.seg ∧ t.env.draws = s.env.draws.tail ∧
      Transmitted s t (sendChoice (drawTaken s)) ∧
      SendOutcome s t (sendChoice (drawTaken s)) (GoesOn s t .s1)

/-- spec/42 R146: at `OR.SendGrant`, `seg.SYNACK` builds the grant with a drawn sequence number and the acknowledgment
`PEER_SEQ + 1`, SYN and ACK set. -/
def Obligations.OpenGrantIsBuiltAndSent : Prop :=
  ∀ s : State, AtSend s .orSendGrant →
    ∃ t, exec .segSynAck s = .next t ∧ t.localSeq.toNat = (drawValue s).toNat % 0xFFFFFFF0 ∧
      Built s t.localSeq (s.peerSeq + 1#32) 0x6012#16 t.seg ∧ t.env.draws = s.env.draws.tail ∧
      Transmitted s t (sendChoice (drawTaken s)) ∧
      SendOutcome s t (sendChoice (drawTaken s)) (GoesOn s t .s2)

/-- spec/42 R143, spec/43 R164 and R167: `seg.ACK` at `OI.SendAck` and `CI.SendAck2` builds a new acknowledgment with
`LOCAL_SEQ + 1`, without a draw, and completes the exchange once sent; at `CR.SendAck` it draws the Responder's number and goes on
to step 2. -/
def Obligations.AcknowledgmentsAreBuiltAndSent : Prop :=
  (∀ s : State, AtSend s .oiSendAck ∨ AtSend s .ciSendAck2 →
    ∃ t, exec .segAck s = .next t ∧ t.localSeq = s.localSeq ∧ t.env.draws = s.env.draws ∧
      Built s (s.localSeq + 1#32) (s.peerSeq + 1#32) 0x6010#16 t.seg ∧
      Transmitted s t (sendChoice s) ∧ SendOutcome s t (sendChoice s) (SendCompletes s t)) ∧
  (∀ s : State, AtSend s .crSendAck →
    ∃ t, exec .segAck s = .next t ∧ t.localSeq.toNat = (drawValue s).toNat % 0xFFFFFFF0 ∧
      Built s t.localSeq (s.peerSeq + 1#32) 0x6010#16 t.seg ∧ t.env.draws = s.env.draws.tail ∧
      Transmitted s t (sendChoice (drawTaken s)) ∧
      SendOutcome s t (sendChoice (drawTaken s)) (GoesOn s t .s2))

/-- spec/43 R161 and R168: `seg.FIN` at `CI.SendFin` builds a close request with a drawn number; at `CR.SendFin` it reuses the
segment in `SEG` as a template: ACK cleared, FIN set, stamped again, every other bit and field as it was, no draw. -/
def Obligations.CloseRequestsAreBuiltAndSent : Prop :=
  (∀ s : State, AtSend s .ciSendFin →
    ∃ t, exec .segFin s = .next t ∧ t.localSeq.toNat = (drawValue s).toNat % 0xFFFFFFF0 ∧
      Built s t.localSeq 0#32 0x6001#16 t.seg ∧ t.env.draws = s.env.draws.tail ∧
      Transmitted s t (sendChoice (drawTaken s)) ∧
      SendOutcome s t (sendChoice (drawTaken s)) (GoesOn s t .s1)) ∧
  (∀ s : State, AtSend s .crSendFin →
    ∃ t, exec .segFin s = .next t ∧ t.localSeq = s.localSeq ∧ t.env.draws = s.env.draws ∧
      (∀ k, k < 16 → t.seg.ctrl.getLsbD k = (decide (k = 0) || (!decide (k = 4) && s.seg.ctrl.getLsbD k))) ∧
      t.seg.sport = s.seg.sport ∧ t.seg.dport = s.seg.dport ∧ t.seg.seq = s.seg.seq ∧ t.seg.ack = s.seg.ack ∧
      t.seg.win = s.seg.win ∧ t.seg.urg = s.seg.urg ∧ t.seg.opt = s.seg.opt ∧ t.seg.csum = checksum t.seg ∧
      Transmitted s t (sendChoice s) ∧ SendOutcome s t (sendChoice s) (GoesOn s t .s3))

/-- The model's choice (log entry 10, from spec/30 R97 (c): a host cannot issue a bare send): a segment kind is refused by
name where the instance stands at no send step that builds it. -/
def Obligations.SegmentKindElsewhereIsRefused : Prop :=
  ∀ (s : State) (i : Instr) (w : Half), encode i = .ctrl w →
    (∀ e, activeStep s = some e → builtControl e ≠ some w) → exec i s = .refused .notAtBuildingStep

/-- Every segment the block sends has one of the four kinds' control words (so `hlen` 6, the reserved bits 0, RST, PSH and URG clear),
zero placeholders, the instance's ports, and verifies (spec/30 R85, R87, R89). -/
def Obligations.EverySentSegmentIsWellBuilt : Prop :=
  ∀ (u s t : State) (e : ExStep) (w : Half), Inv s → OwnTurn u s → AtSend s e → builtControl e = some w →
    step u = .next t →
    t.seg.ctrl = w ∧ ctrlHlen t.seg.ctrl = 6#4 ∧ ctrlReserved t.seg.ctrl = 0#6 ∧ flagSet t.seg .rst = false ∧
      flagSet t.seg .psh = false ∧ flagSet t.seg .urg = false ∧ t.seg.win = 0#16 ∧ t.seg.urg = 0#16 ∧ t.seg.opt = 0#32 ∧
      t.seg.sport = s.localPort ∧ t.seg.dport = s.peerPort ∧ verify t.seg = true ∧ Memory.bytes t.buf = Memory.bytes (pack .le t.seg)

/-! ### The receive steps -/

/-- spec/70 R225: a blocked step changes nothing and is neither an error nor an end. A receive step is blocked while fewer than 24
bytes wait and the direction is not `down` (spec/20 R60 (c)); a send step, or the segment kind it carries out, while the
direction takes no bytes and is not `down` (spec/20 R59; when that is so is the environment's, log entry 15). -/
def Obligations.BlockedStepChangesNothing : Prop :=
  (∀ (u s : State) (e : ExStep), OwnTurn u s → activeStep s = some e → builtControl e = none → s.env.rxq.length < 24 →
    s.env.rxDown = false → step u = .next s) ∧
  (∀ (u s : State) (e : ExStep) (w : Half), OwnTurn u s → activeStep s = some e → builtControl e = some w →
    s.env.txStalled = true → s.env.txDown = false → step u = .next s) ∧
  (∀ (s : State) (e : ExStep) (i : Instr) (w : Half), activeStep s = some e → builtControl e = some w → encode i = .ctrl w →
    s.env.txStalled = true → s.env.txDown = false → exec i s = .next s)

/-- spec/20 R60 (a), R61, R69: with 24 or more bytes waiting and no other choice made, a receive returns the first 24 of them in order
and the rest stays for later receives, whether or not the direction is `down`. -/
def Obligations.ReceiveTakesTheFirstSegment : Prop :=
  ∀ s : State, 24 ≤ s.env.rxq.length → s.env.recvChoices = [] →
    recvBlocked s = false ∧ ∃ r, recvAnswer s = .bytes r ∧ r.length = 24 ∧ s.env.rxq = r ++ (afterRecv s).env.rxq

/-- spec/42 R142: `OI.AwaitGrant` checks the acknowledgment, SYN, ACK and last the checksum, in this order; the first failing check is
the one reported; if all pass, `PEER_SEQ` holds the received sequence number and the exchange goes on at step 2. -/
def Obligations.OpenInitiatorAwaitsGrant : Prop :=
  ∀ u s : State, OwnTurn u s → AtReceive s .oiAwaitGrant →
    ∃ t, step u = .next t ∧ ShortReceive s t ∧
      ∀ r, recvAnswer s = .bytes r → r.length = 24 → Received s t r ∧
        (t.seg.ack ≠ s.localSeq + 1#32 → FailedCheck s t .acknowledgmentMismatch .fin (s.localSeq + 1#32) t.seg.ack) ∧
        (t.seg.ack = s.localSeq + 1#32 →
          (flagSet t.seg .syn = false → FailedCheck s t .flagMismatch .syn 0x02#32 (flagBits t.seg)) ∧
          (flagSet t.seg .syn = true →
            (flagSet t.seg .ack = false → FailedCheck s t .flagMismatch .ack 0x10#32 (flagBits t.seg)) ∧
            (flagSet t.seg .ack = true →
              (checksum t.seg ≠ t.seg.csum →
                FailedCheck s t .checksumMismatch .fin (asWord (checksum t.seg)) (asWord t.seg.csum)) ∧
              (checksum t.seg = t.seg.csum → GoesOn s t .s2 ∧ t.peerSeq = t.seg.seq))))

/-- spec/42 R145: `OR.AwaitRequest` checks the checksum and SYN; the acknowledgment is not looked at. -/
def Obligations.OpenResponderAwaitsRequest : Prop :=
  ∀ u s : State, OwnTurn u s → AtReceive s .orAwaitRequest →
    ∃ t, step u = .next t ∧ ShortReceive s t ∧
      ∀ r, recvAnswer s = .bytes r → r.length = 24 → Received s t r ∧
        (checksum t.seg ≠ t.seg.csum → FailedCheck s t .checksumMismatch .fin (asWord (checksum t.seg)) (asWord t.seg.csum)) ∧
        (checksum t.seg = t.seg.csum →
          (flagSet t.seg .syn = false → FailedCheck s t .flagMismatch .syn 0x02#32 (flagBits t.seg)) ∧
          (flagSet t.seg .syn = true → GoesOn s t .s1 ∧ t.peerSeq = t.seg.seq))

/-- spec/42 R147 and spec/43 R169: `OR.AwaitAck` and `CR.AwaitAck` check the checksum, the sequence number, the acknowledgment and ACK,
and complete the exchange. -/
def Obligations.FinalAcknowledgmentIsValidated : Prop :=
  ∀ u s : State, OwnTurn u s → AtReceive s .orAwaitAck ∨ AtReceive s .crAwaitAck →
    ∃ t, step u = .next t ∧ ShortReceive s t ∧
      ∀ r, recvAnswer s = .bytes r → r.length = 24 → Received s t r ∧
        (checksum t.seg ≠ t.seg.csum → FailedCheck s t .checksumMismatch .fin (asWord (checksum t.seg)) (asWord t.seg.csum)) ∧
        (checksum t.seg = t.seg.csum →
          (t.seg.seq ≠ s.peerSeq + 1#32 → FailedCheck s t .sequenceMismatch .fin (s.peerSeq + 1#32) t.seg.seq) ∧
          (t.seg.seq = s.peerSeq + 1#32 →
            (t.seg.ack ≠ s.localSeq + 1#32 → FailedCheck s t .acknowledgmentMismatch .fin (s.localSeq + 1#32) t.seg.ack) ∧
            (t.seg.ack = s.localSeq + 1#32 →
              (flagSet t.seg .ack = false → FailedCheck s t .flagMismatch .ack 0x10#32 (flagBits t.seg)) ∧
              (flagSet t.seg .ack = true → Completes s t))))

/-- spec/43 R162: `CI.AwaitAck1` checks the checksum, the acknowledgment and ACK, and keeps the peer's sequence number. -/
def Obligations.CloseInitiatorAwaitsAcknowledgment : Prop :=
  ∀ u s : State, OwnTurn u s → AtReceive s .ciAwaitAck1 →
    ∃ t, step u = .next t ∧ ShortReceive s t ∧
      ∀ r, recvAnswer s = .bytes r → r.length = 24 → Received s t r ∧
        (checksum t.seg ≠ t.seg.csum → FailedCheck s t .checksumMismatch .fin (asWord (checksum t.seg)) (asWord t.seg.csum)) ∧
        (checksum t.seg = t.seg.csum →
          (t.seg.ack ≠ s.localSeq + 1#32 → FailedCheck s t .acknowledgmentMismatch .fin (s.localSeq + 1#32) t.seg.ack) ∧
          (t.seg.ack = s.localSeq + 1#32 →
            (flagSet t.seg .ack = false → FailedCheck s t .flagMismatch .ack 0x10#32 (flagBits t.seg)) ∧
            (flagSet t.seg .ack = true → GoesOn s t .s2 ∧ t.peerSeq = t.seg.seq)))

/-- spec/43 R163: `CI.AwaitFin` checks the checksum, the acknowledgment and FIN; `PEER_SEQ` keeps its value. -/
def Obligations.CloseInitiatorAwaitsFin : Prop :=
  ∀ u s : State, OwnTurn u s → AtReceive s .ciAwaitFin →
    ∃ t, step u = .next t ∧ ShortReceive s t ∧
      ∀ r, recvAnswer s = .bytes r → r.length = 24 → Received s t r ∧
        (checksum t.seg ≠ t.seg.csum → FailedCheck s t .checksumMismatch .fin (asWord (checksum t.seg)) (asWord t.seg.csum)) ∧
        (checksum t.seg = t.seg.csum →
          (t.seg.ack ≠ s.localSeq + 1#32 → FailedCheck s t .acknowledgmentMismatch .fin (s.localSeq + 1#32) t.seg.ack) ∧
          (t.seg.ack = s.localSeq + 1#32 →
            (flagSet t.seg .fin = false → FailedCheck s t .flagMismatch .fin 0x01#32 (flagBits t.seg)) ∧
            (flagSet t.seg .fin = true → GoesOn s t .s3 ∧ t.peerSeq = s.peerSeq)))

/-- spec/43 R166: `CR.AwaitFin` checks the checksum, the acknowledgment against the constant 0, and FIN. -/
def Obligations.CloseResponderAwaitsFin : Prop :=
  ∀ u s : State, OwnTurn u s → AtReceive s .crAwaitFin →
    ∃ t, step u = .next t ∧ ShortReceive s t ∧
      ∀ r, recvAnswer s = .bytes r → r.length = 24 → Received s t r ∧
        (checksum t.seg ≠ t.seg.csum → FailedCheck s t .checksumMismatch .fin (asWord (checksum t.seg)) (asWord t.seg.csum)) ∧
        (checksum t.seg = t.seg.csum →
          (t.seg.ack ≠ 0#32 → FailedCheck s t .acknowledgmentMismatch .fin 0#32 t.seg.ack) ∧
          (t.seg.ack = 0#32 →
            (flagSet t.seg .fin = false → FailedCheck s t .flagMismatch .fin 0x01#32 (flagBits t.seg)) ∧
            (flagSet t.seg .fin = true → GoesOn s t .s1 ∧ t.peerSeq = t.seg.seq)))

/-! ### Rules of the whole machine -/

/-- spec/60 R186: a step of a running exchange that fails records one of the kinds the table lists for it, and the unit operations
raise nothing. -/
def Obligations.StepsRaiseOnlyTheirKinds : Prop :=
  (∀ (u s t : State) (e : ExStep), OwnTurn u s → activeStep s = some e → step u = .next t → t.status.run = .failed →
    t.err.kind ∈ mayRaise e) ∧
  (∀ (s t : State) (i : Instr), isCommand i = true → exec i s = .next t →
    t.status.run = s.status.run ∧ t.err = s.err ∨ t.status.run = .busy ∧ t.err = ErrReg.zero)

/-- spec/42 R149: a step of the block itself leaves the state alone only where the instance is idle or blocked; else it goes on to the next index, or ends
a last step in `DONE`, or fails and keeps the index; there is no other transfer. -/
def Obligations.ControlTransferIsForwardOnly : Prop :=
  ∀ u s t : State, OwnTurn u s → step u = .next t →
    (t = s ∧ HasNoStep s) ∨
    ∃ e, activeStep s = some e ∧
      ((lastStep e = false ∧ t.status.run = .busy ∧ some t.stepIx = s.stepIx.succ?) ∨
       (lastStep e = true ∧ t.status.run = .done ∧ t.stepIx = s.stepIx) ∨
       (t.status.run = .failed ∧ t.stepIx = s.stepIx))

/-- spec/10 R39, spec/60 R203: host writes of `SEG` and `BUF` take effect while the instance is not `BUSY`, and have none while it is;
nothing but the register written changes. -/
def Obligations.HostWritesOnlyWhileNotBusy : Prop :=
  ∀ (s : State) (rest : List Input),
    (∀ g, s.env.inputs = .writeSeg g :: rest →
      ∃ t, step s = .next t ∧ t.seg = (if s.status.run = .busy then s.seg else g) ∧ SameBytes s t ∧ SameExchange s t ∧
        t.status = s.status ∧ t.err = s.err ∧ t.res = s.res ∧ SameChannel s t ∧ t.env.draws = s.env.draws ∧
        t.env.trace = s.env.trace ∧ t.env.inputs = rest) ∧
    (∀ (k : Fin 24) (b : Byte), Memory.wf s.buf = true → s.env.inputs = .writeBuf k b :: rest →
      ∃ t, step s = .next t ∧ t.seg = s.seg ∧
        (∀ a, Memory.read t.buf a = if s.status.run ≠ .busy ∧ a = k.val then b else Memory.read s.buf a) ∧ SameExchange s t ∧
        t.status = s.status ∧ t.err = s.err ∧ t.res = s.res ∧ SameChannel s t ∧ t.env.draws = s.env.draws ∧
        t.env.trace = s.env.trace ∧ t.env.inputs = rest)

/-- spec/70 R221: an instance that runs no exchange performs no step of its own. -/
def Obligations.IdleBlockDoesNothing : Prop :=
  ∀ u s : State, OwnTurn u s → s.status.run ≠ .busy → step u = .next s

/-- spec/10 R27: `OP`, `ROLE` and the ports are written only by an accepted `OPEN` or `CLOSE` (and by reset). -/
def Obligations.SetupIsWrittenOnlyByEntry : Prop :=
  ∀ s t : State, step s = .next t → ¬ SameSetup s t →
    (∃ rest, s.env.inputs = .reset :: rest) ∨
    (∃ w a b rest, s.env.inputs = .command w a b :: rest ∧ (cmdOpc w = 12 ∨ cmdOpc w = 13) ∧ s.status.run ≠ .busy ∧
      t.status.run = .busy ∧ t.localPort = a ∧ t.peerPort = b)

/-- spec/60 R195, in all seven receive steps. On a received segment with no flag beyond the required ones (a required one may be
missing) a step does the same under `STRICT_FLAGS` and without it. A failure of an earlier check is the strict step's too. Where
the step gets past the last required-flag check (that is: without `STRICT_FLAGS` it does not fail, or in `OI.AwaitGrant` fails at
the checksum, which is checked later) and the segment has other flags, the strict step fails with the lowest-numbered one. -/
def Obligations.StrictVariantDiffersOnlyOnExtraFlags : Prop :=
  let strict : Params := { decided with strictFlags := true }
  ∀ (s : State) (e : ExStep) (r : List Byte) (required : BitVec 6),
    (e, required) ∈ [(ExStep.oiAwaitGrant, 0x12#6), (.orAwaitRequest, 0x02#6), (.orAwaitAck, 0x10#6), (.ciAwaitAck1, 0x10#6),
      (.ciAwaitFin, 0x01#6), (.crAwaitFin, 0x01#6), (.crAwaitAck, 0x10#6)] →
    AtReceive s e → recvAnswer s = .bytes r → r.length = 24 →
    let got : Segment := unpack .le (Memory.ofBytes r)
    let plain : State := receiveStep decided e s
    let flagsChecked : Prop := plain.status.run = .failed → e = .oiAwaitGrant ∧ plain.err.kind = .checksumMismatch
    ((∀ f, flagSet got f = true → required.getLsbD f.pos = true) → receiveStep strict e s = plain) ∧
    (¬ flagsChecked → receiveStep strict e s = plain) ∧
    (flagsChecked → ∀ f, flagSet got f = true → required.getLsbD f.pos = false →
      (∀ h, h.pos < f.pos → flagSet got h = true → required.getLsbD h.pos = true) →
      (receiveStep strict e s).status.run = .failed ∧
      (receiveStep strict e s).err =
        ⟨.flagMismatch, s.op, s.role, s.stepIx, f, .send, false, false, true, required.setWidth 32, flagBits got⟩)

/-- spec/20 R58, R62 (4): what happens in the channel changes no register of the block: bytes that arrive are added behind those that
wait, bytes the peer takes leave from the front, and each condition changes alone; and no step of the machine ever clears a
`down`. That a direction can stall and resume is the model's (log entry 15). -/
def Obligations.ChannelEventsTouchOnlyTheChannel : Prop :=
  (∀ (s : State) (rest : List Input),
    (∀ bs, s.env.inputs = .arrive bs :: rest →
      step s = .next { s with env := { s.env with inputs := rest, rxq := s.env.rxq ++ bs } }) ∧
    (∀ n, s.env.inputs = .collect n :: rest →
      step s = .next { s with env := { s.env with inputs := rest, txq := s.env.txq.drop n } }) ∧
    (s.env.inputs = .rxDown :: rest → step s = .next { s with env := { s.env with inputs := rest, rxDown := true } }) ∧
    (s.env.inputs = .txDown :: rest → step s = .next { s with env := { s.env with inputs := rest, txDown := true } }) ∧
    (s.env.inputs = .txStall :: rest → step s = .next { s with env := { s.env with inputs := rest, txStalled := true } }) ∧
    (s.env.inputs = .txResume :: rest → step s = .next { s with env := { s.env with inputs := rest, txStalled := false } })) ∧
  (∀ s t : State, step s = .next t →
    (s.env.rxDown = true → t.env.rxDown = true) ∧ (s.env.txDown = true → t.env.txDown = true))

/-! ### Two instances on one channel -/

/-- spec/42 R150: an Initiator and a Responder, entered on a quiet channel, complete the open exchange in the order of spec/95 P2,
whatever their ports and their draws; each ends with its own and the peer's number, and the last segment carries `s + 1`, `t + 1`. -/
def Obligations.OpenExchangeCompletes : Prop :=
  ∀ (x y x' y' : State) (a b c d : Half), Quiet x → Quiet y → x.status.run ≠ .busy → y.status.run ≠ .busy →
    exec (.openI a b) x = .next x' → exec (.openR c d) y = .next y' →
    ∃ q, pairRun [.left, .right, .right, .left, .left, .right] ⟨x', y'⟩ = .next q ∧
      q.left.status.run = .done ∧ q.right.status.run = .done ∧ q.left.err.kind = .none ∧ q.right.err.kind = .none ∧
      q.left.localSeq.toNat = (drawValue x).toNat % 0xFFFFFFF0 ∧ q.right.localSeq.toNat = (drawValue y).toNat % 0xFFFFFFF0 ∧
      q.left.peerSeq = q.right.localSeq ∧ q.right.peerSeq = q.left.localSeq ∧ q.left.stepIx = .s2 ∧ q.right.stepIx = .s2 ∧
      q.right.seg = q.left.seg ∧ q.left.seg.seq = q.left.localSeq + 1#32 ∧ q.left.seg.ack = q.right.localSeq + 1#32 ∧
      q.left.seg.ctrl = 0x6010#16 ∧ q.left.seg.sport = a ∧ q.left.seg.dport = b ∧
      q.left.env.rxq = [] ∧ q.right.env.rxq = [] ∧
      q.left.env.trace.length = x.env.trace.length + 3 ∧ q.right.env.trace.length = y.env.trace.length + 3

/-- spec/43 R171: the same for the close exchange, in the order of spec/95 P3: four segments, two of them sent by the Responder one after
the other. -/
def Obligations.CloseExchangeCompletes : Prop :=
  ∀ (x y x' y' : State) (a b c d : Half), Quiet x → Quiet y → x.status.run ≠ .busy → y.status.run ≠ .busy →
    exec (.closeI a b) x = .next x' → exec (.closeR c d) y = .next y' →
    ∃ q, pairRun [.left, .right, .right, .right, .left, .left, .left, .right] ⟨x', y'⟩ = .next q ∧
      q.left.status.run = .done ∧ q.right.status.run = .done ∧ q.left.err.kind = .none ∧ q.right.err.kind = .none ∧
      q.left.localSeq.toNat = (drawValue x).toNat % 0xFFFFFFF0 ∧ q.right.localSeq.toNat = (drawValue y).toNat % 0xFFFFFFF0 ∧
      q.left.peerSeq = q.right.localSeq ∧ q.right.peerSeq = q.left.localSeq ∧ q.left.stepIx = .s3 ∧ q.right.stepIx = .s3 ∧
      q.right.seg = q.left.seg ∧ q.left.seg.seq = q.left.localSeq + 1#32 ∧ q.left.seg.ack = q.right.localSeq + 1#32 ∧
      q.left.seg.ctrl = 0x6010#16 ∧ q.left.seg.sport = a ∧ q.left.seg.dport = b ∧
      q.left.env.rxq = [] ∧ q.right.env.rxq = [] ∧
      q.left.env.trace.length = x.env.trace.length + 4 ∧ q.right.env.trace.length = y.env.trace.length + 4

/-- spec/42 R151, spec/70 R237: under EVERY schedule of the two sides of a quiet open exchange neither side fails, no step stops, and the
Responder is done only if the Initiator is. -/
def Obligations.OpenExchangeFailsUnderNoSchedule : Prop :=
  ∀ (x y x' y' : State) (a b c d : Half) (schedule : List Side), Quiet x → Quiet y → x.status.run ≠ .busy → y.status.run ≠ .busy →
    exec (.openI a b) x = .next x' → exec (.openR c d) y = .next y' →
    ∃ q, pairRun schedule ⟨x', y'⟩ = .next q ∧ q.left.status.run ≠ .failed ∧ q.right.status.run ≠ .failed ∧
      (q.right.status.run = .done → q.left.status.run = .done)

/-- spec/70 R226: two open Initiators on one quiet channel both fail with `AcknowledgmentMismatch` at step 1. -/
def Obligations.TwoOpenInitiatorsBothFail : Prop :=
  ∀ (x y x' y' : State) (a b c d : Half), Quiet x → Quiet y → x.status.run ≠ .busy → y.status.run ≠ .busy →
    exec (.openI a b) x = .next x' → exec (.openI c d) y = .next y' →
    ∃ q, pairRun [.left, .right, .left, .right] ⟨x', y'⟩ = .next q ∧
      q.left.status.run = .failed ∧ q.left.err.kind = .acknowledgmentMismatch ∧ q.left.err.stepIx = .s1 ∧
      q.left.err.observed = 0#32 ∧ q.right.status.run = .failed ∧ q.right.err.kind = .acknowledgmentMismatch ∧
      q.right.err.stepIx = .s1 ∧ q.right.err.observed = 0#32
end

