-- ==== Sys2Proof/Laws/State.lean ====
section
/-! SUPPORT. One lemma per field per named update of the state, so that no later proof unfolds an update. -/

namespace Sys2Proof.Machine

/-! ### `refuseCommand` -/

@[simp] theorem refuseCommand_seg (s : State) : (refuseCommand s).seg = s.seg := rfl
@[simp] theorem refuseCommand_buf (s : State) : (refuseCommand s).buf = s.buf := rfl
@[simp] theorem refuseCommand_localSeq (s : State) : (refuseCommand s).localSeq = s.localSeq := rfl
@[simp] theorem refuseCommand_peerSeq (s : State) : (refuseCommand s).peerSeq = s.peerSeq := rfl
@[simp] theorem refuseCommand_stepIx (s : State) : (refuseCommand s).stepIx = s.stepIx := rfl
@[simp] theorem refuseCommand_op (s : State) : (refuseCommand s).op = s.op := rfl
@[simp] theorem refuseCommand_role (s : State) : (refuseCommand s).role = s.role := rfl
@[simp] theorem refuseCommand_localPort (s : State) : (refuseCommand s).localPort = s.localPort := rfl
@[simp] theorem refuseCommand_peerPort (s : State) : (refuseCommand s).peerPort = s.peerPort := rfl
@[simp] theorem refuseCommand_status (s : State) : (refuseCommand s).status = { s.status with cmdErr := true } := rfl
@[simp] theorem refuseCommand_err (s : State) : (refuseCommand s).err = s.err := rfl
@[simp] theorem refuseCommand_res (s : State) : (refuseCommand s).res = s.res := rfl
@[simp] theorem refuseCommand_env (s : State) : (refuseCommand s).env = s.env := rfl

/-! ### `acceptCommand` -/

@[simp] theorem acceptCommand_seg (s : State) : (acceptCommand s).seg = s.seg := rfl
@[simp] theorem acceptCommand_buf (s : State) : (acceptCommand s).buf = s.buf := rfl
@[simp] theorem acceptCommand_localSeq (s : State) : (acceptCommand s).localSeq = s.localSeq := rfl
@[simp] theorem acceptCommand_peerSeq (s : State) : (acceptCommand s).peerSeq = s.peerSeq := rfl
@[simp] theorem acceptCommand_stepIx (s : State) : (acceptCommand s).stepIx = s.stepIx := rfl
@[simp] theorem acceptCommand_op (s : State) : (acceptCommand s).op = s.op := rfl
@[simp] theorem acceptCommand_role (s : State) : (acceptCommand s).role = s.role := rfl
@[simp] theorem acceptCommand_localPort (s : State) : (acceptCommand s).localPort = s.localPort := rfl
@[simp] theorem acceptCommand_peerPort (s : State) : (acceptCommand s).peerPort = s.peerPort := rfl
@[simp] theorem acceptCommand_status (s : State) : (acceptCommand s).status = { s.status with cmdErr := false } := rfl
@[simp] theorem acceptCommand_err (s : State) : (acceptCommand s).err = s.err := rfl
@[simp] theorem acceptCommand_res (s : State) : (acceptCommand s).res = s.res := rfl
@[simp] theorem acceptCommand_env (s : State) : (acceptCommand s).env = s.env := rfl

/-! ### `setRes` -/

@[simp] theorem setRes_seg (v : Word) (s : State) : (setRes v s).seg = s.seg := rfl
@[simp] theorem setRes_buf (v : Word) (s : State) : (setRes v s).buf = s.buf := rfl
@[simp] theorem setRes_localSeq (v : Word) (s : State) : (setRes v s).localSeq = s.localSeq := rfl
@[simp] theorem setRes_peerSeq (v : Word) (s : State) : (setRes v s).peerSeq = s.peerSeq := rfl
@[simp] theorem setRes_stepIx (v : Word) (s : State) : (setRes v s).stepIx = s.stepIx := rfl
@[simp] theorem setRes_op (v : Word) (s : State) : (setRes v s).op = s.op := rfl
@[simp] theorem setRes_role (v : Word) (s : State) : (setRes v s).role = s.role := rfl
@[simp] theorem setRes_localPort (v : Word) (s : State) : (setRes v s).localPort = s.localPort := rfl
@[simp] theorem setRes_peerPort (v : Word) (s : State) : (setRes v s).peerPort = s.peerPort := rfl
@[simp] theorem setRes_status (v : Word) (s : State) : (setRes v s).status = s.status := rfl
@[simp] theorem setRes_err (v : Word) (s : State) : (setRes v s).err = s.err := rfl
@[simp] theorem setRes_res (v : Word) (s : State) : (setRes v s).res = v := rfl
@[simp] theorem setRes_env (v : Word) (s : State) : (setRes v s).env = s.env := rfl

/-! ### `enterExchange` -/

@[simp] theorem enterExchange_seg (o : ExOp) (r : Role) (l p : Half) (s : State) : (enterExchange o r l p s).seg = s.seg := rfl
@[simp] theorem enterExchange_buf (o : ExOp) (r : Role) (l p : Half) (s : State) : (enterExchange o r l p s).buf = s.buf := rfl
@[simp] theorem enterExchange_localSeq (o : ExOp) (r : Role) (l p : Half) (s : State) : (enterExchange o r l p s).localSeq = 0#32 := rfl
@[simp] theorem enterExchange_peerSeq (o : ExOp) (r : Role) (l p : Half) (s : State) : (enterExchange o r l p s).peerSeq = 0#32 := rfl
@[simp] theorem enterExchange_stepIx (o : ExOp) (r : Role) (l p : Half) (s : State) : (enterExchange o r l p s).stepIx = .s0 := rfl
@[simp] theorem enterExchange_op (o : ExOp) (r : Role) (l p : Half) (s : State) : (enterExchange o r l p s).op = o := rfl
@[simp] theorem enterExchange_role (o : ExOp) (r : Role) (l p : Half) (s : State) : (enterExchange o r l p s).role = r := rfl
@[simp] theorem enterExchange_localPort (o : ExOp) (r : Role) (l p : Half) (s : State) : (enterExchange o r l p s).localPort = l := rfl
@[simp] theorem enterExchange_peerPort (o : ExOp) (r : Role) (l p : Half) (s : State) : (enterExchange o r l p s).peerPort = p := rfl
@[simp] theorem enterExchange_status (o : ExOp) (r : Role) (l p : Half) (s : State) : (enterExchange o r l p s).status = ⟨.busy, false⟩ := rfl
@[simp] theorem enterExchange_err (o : ExOp) (r : Role) (l p : Half) (s : State) : (enterExchange o r l p s).err = ErrReg.zero := rfl
@[simp] theorem enterExchange_res (o : ExOp) (r : Role) (l p : Half) (s : State) : (enterExchange o r l p s).res = s.res := rfl
@[simp] theorem enterExchange_env (o : ExOp) (r : Role) (l p : Half) (s : State) : (enterExchange o r l p s).env = s.env := rfl

/-! ### `raise` -/

@[simp] theorem raise_seg (k : ErrKind) (i : RaiseInfo) (s : State) : (raise k i s).seg = s.seg := rfl
@[simp] theorem raise_buf (k : ErrKind) (i : RaiseInfo) (s : State) : (raise k i s).buf = s.buf := rfl
@[simp] theorem raise_localSeq (k : ErrKind) (i : RaiseInfo) (s : State) : (raise k i s).localSeq = s.localSeq := rfl
@[simp] theorem raise_peerSeq (k : ErrKind) (i : RaiseInfo) (s : State) : (raise k i s).peerSeq = s.peerSeq := rfl
@[simp] theorem raise_stepIx (k : ErrKind) (i : RaiseInfo) (s : State) : (raise k i s).stepIx = s.stepIx := rfl
@[simp] theorem raise_op (k : ErrKind) (i : RaiseInfo) (s : State) : (raise k i s).op = s.op := rfl
@[simp] theorem raise_role (k : ErrKind) (i : RaiseInfo) (s : State) : (raise k i s).role = s.role := rfl
@[simp] theorem raise_localPort (k : ErrKind) (i : RaiseInfo) (s : State) : (raise k i s).localPort = s.localPort := rfl
@[simp] theorem raise_peerPort (k : ErrKind) (i : RaiseInfo) (s : State) : (raise k i s).peerPort = s.peerPort := rfl
@[simp] theorem raise_status (k : ErrKind) (i : RaiseInfo) (s : State) : (raise k i s).status = { s.status with run := .failed } := rfl
@[simp] theorem raise_err (k : ErrKind) (i : RaiseInfo) (s : State) : (raise k i s).err = ⟨k, s.op, s.role, s.stepIx, i.flag, i.dir, i.chanErr, i.disc, i.unexpected, i.expected, i.observed⟩ := rfl
@[simp] theorem raise_res (k : ErrKind) (i : RaiseInfo) (s : State) : (raise k i s).res = s.res := rfl
@[simp] theorem raise_env (k : ErrKind) (i : RaiseInfo) (s : State) : (raise k i s).env = s.env := rfl

/-! ### `finish` -/

@[simp] theorem finish_seg (s : State) : (finish s).seg = s.seg := rfl
@[simp] theorem finish_buf (s : State) : (finish s).buf = s.buf := rfl
@[simp] theorem finish_localSeq (s : State) : (finish s).localSeq = s.localSeq := rfl
@[simp] theorem finish_peerSeq (s : State) : (finish s).peerSeq = s.peerSeq := rfl
@[simp] theorem finish_stepIx (s : State) : (finish s).stepIx = s.stepIx := rfl
@[simp] theorem finish_op (s : State) : (finish s).op = s.op := rfl
@[simp] theorem finish_role (s : State) : (finish s).role = s.role := rfl
@[simp] theorem finish_localPort (s : State) : (finish s).localPort = s.localPort := rfl
@[simp] theorem finish_peerPort (s : State) : (finish s).peerPort = s.peerPort := rfl
@[simp] theorem finish_status (s : State) : (finish s).status = { s.status with run := .done } := rfl
@[simp] theorem finish_err (s : State) : (finish s).err = s.err := rfl
@[simp] theorem finish_res (s : State) : (finish s).res = s.res := rfl
@[simp] theorem finish_env (s : State) : (finish s).env = s.env := rfl

/-! ### `gotoStep` -/

@[simp] theorem gotoStep_seg (n : StepIx) (s : State) : (gotoStep n s).seg = s.seg := rfl
@[simp] theorem gotoStep_buf (n : StepIx) (s : State) : (gotoStep n s).buf = s.buf := rfl
@[simp] theorem gotoStep_localSeq (n : StepIx) (s : State) : (gotoStep n s).localSeq = s.localSeq := rfl
@[simp] theorem gotoStep_peerSeq (n : StepIx) (s : State) : (gotoStep n s).peerSeq = s.peerSeq := rfl
@[simp] theorem gotoStep_stepIx (n : StepIx) (s : State) : (gotoStep n s).stepIx = n := rfl
@[simp] theorem gotoStep_op (n : StepIx) (s : State) : (gotoStep n s).op = s.op := rfl
@[simp] theorem gotoStep_role (n : StepIx) (s : State) : (gotoStep n s).role = s.role := rfl
@[simp] theorem gotoStep_localPort (n : StepIx) (s : State) : (gotoStep n s).localPort = s.localPort := rfl
@[simp] theorem gotoStep_peerPort (n : StepIx) (s : State) : (gotoStep n s).peerPort = s.peerPort := rfl
@[simp] theorem gotoStep_status (n : StepIx) (s : State) : (gotoStep n s).status = s.status := rfl
@[simp] theorem gotoStep_err (n : StepIx) (s : State) : (gotoStep n s).err = s.err := rfl
@[simp] theorem gotoStep_res (n : StepIx) (s : State) : (gotoStep n s).res = s.res := rfl
@[simp] theorem gotoStep_env (n : StepIx) (s : State) : (gotoStep n s).env = s.env := rfl

/-! ### `drawTaken` -/

@[simp] theorem drawTaken_seg (s : State) : (drawTaken s).seg = s.seg := by unfold drawTaken; split <;> simp_all
@[simp] theorem drawTaken_buf (s : State) : (drawTaken s).buf = s.buf := by unfold drawTaken; split <;> simp_all
@[simp] theorem drawTaken_localSeq (s : State) : (drawTaken s).localSeq = s.localSeq := by unfold drawTaken; split <;> simp_all
@[simp] theorem drawTaken_peerSeq (s : State) : (drawTaken s).peerSeq = s.peerSeq := by unfold drawTaken; split <;> simp_all
@[simp] theorem drawTaken_stepIx (s : State) : (drawTaken s).stepIx = s.stepIx := by unfold drawTaken; split <;> simp_all
@[simp] theorem drawTaken_op (s : State) : (drawTaken s).op = s.op := by unfold drawTaken; split <;> simp_all
@[simp] theorem drawTaken_role (s : State) : (drawTaken s).role = s.role := by unfold drawTaken; split <;> simp_all
@[simp] theorem drawTaken_localPort (s : State) : (drawTaken s).localPort = s.localPort := by unfold drawTaken; split <;> simp_all
@[simp] theorem drawTaken_peerPort (s : State) : (drawTaken s).peerPort = s.peerPort := by unfold drawTaken; split <;> simp_all
@[simp] theorem drawTaken_status (s : State) : (drawTaken s).status = s.status := by unfold drawTaken; split <;> simp_all
@[simp] theorem drawTaken_err (s : State) : (drawTaken s).err = s.err := by unfold drawTaken; split <;> simp_all
@[simp] theorem drawTaken_res (s : State) : (drawTaken s).res = s.res := by unfold drawTaken; split <;> simp_all
@[simp] theorem drawTaken_env_inputs (s : State) : (drawTaken s).env.inputs = s.env.inputs := by unfold drawTaken; split <;> simp_all
@[simp] theorem drawTaken_env_draws (s : State) : (drawTaken s).env.draws = s.env.draws.tail := by unfold drawTaken; split <;> simp_all
@[simp] theorem drawTaken_env_rxq (s : State) : (drawTaken s).env.rxq = s.env.rxq := by unfold drawTaken; split <;> simp_all
@[simp] theorem drawTaken_env_rxDown (s : State) : (drawTaken s).env.rxDown = s.env.rxDown := by unfold drawTaken; split <;> simp_all
@[simp] theorem drawTaken_env_txq (s : State) : (drawTaken s).env.txq = s.env.txq := by unfold drawTaken; split <;> simp_all
@[simp] theorem drawTaken_env_txDown (s : State) : (drawTaken s).env.txDown = s.env.txDown := by unfold drawTaken; split <;> simp_all
@[simp] theorem drawTaken_env_txStalled (s : State) : (drawTaken s).env.txStalled = s.env.txStalled := by unfold drawTaken; split <;> simp_all
@[simp] theorem drawTaken_env_recvChoices (s : State) : (drawTaken s).env.recvChoices = s.env.recvChoices := by unfold drawTaken; split <;> simp_all
@[simp] theorem drawTaken_env_sendChoices (s : State) : (drawTaken s).env.sendChoices = s.env.sendChoices := by unfold drawTaken; split <;> simp_all
@[simp] theorem drawTaken_env_trace (s : State) : (drawTaken s).env.trace = s.env.trace := by unfold drawTaken; split <;> simp_all
@[simp] theorem drawTaken_env_free (s : State) : (drawTaken s).env.free = if s.env.draws = [] then s.env.free + 1 else s.env.free := by unfold drawTaken; split <;> simp_all

/-! ### `afterSend` -/

@[simp] theorem afterSend_seg (bs : List Byte) (s : State) : (afterSend bs s).seg = s.seg := rfl
@[simp] theorem afterSend_buf (bs : List Byte) (s : State) : (afterSend bs s).buf = s.buf := rfl
@[simp] theorem afterSend_localSeq (bs : List Byte) (s : State) : (afterSend bs s).localSeq = s.localSeq := rfl
@[simp] theorem afterSend_peerSeq (bs : List Byte) (s : State) : (afterSend bs s).peerSeq = s.peerSeq := rfl
@[simp] theorem afterSend_stepIx (bs : List Byte) (s : State) : (afterSend bs s).stepIx = s.stepIx := rfl
@[simp] theorem afterSend_op (bs : List Byte) (s : State) : (afterSend bs s).op = s.op := rfl
@[simp] theorem afterSend_role (bs : List Byte) (s : State) : (afterSend bs s).role = s.role := rfl
@[simp] theorem afterSend_localPort (bs : List Byte) (s : State) : (afterSend bs s).localPort = s.localPort := rfl
@[simp] theorem afterSend_peerPort (bs : List Byte) (s : State) : (afterSend bs s).peerPort = s.peerPort := rfl
@[simp] theorem afterSend_status (bs : List Byte) (s : State) : (afterSend bs s).status = s.status := rfl
@[simp] theorem afterSend_err (bs : List Byte) (s : State) : (afterSend bs s).err = s.err := rfl
@[simp] theorem afterSend_res (bs : List Byte) (s : State) : (afterSend bs s).res = s.res := rfl
@[simp] theorem afterSend_env_inputs (bs : List Byte) (s : State) : (afterSend bs s).env.inputs = s.env.inputs := rfl
@[simp] theorem afterSend_env_draws (bs : List Byte) (s : State) : (afterSend bs s).env.draws = s.env.draws := rfl
@[simp] theorem afterSend_env_rxq (bs : List Byte) (s : State) : (afterSend bs s).env.rxq = s.env.rxq := rfl
@[simp] theorem afterSend_env_rxDown (bs : List Byte) (s : State) : (afterSend bs s).env.rxDown = s.env.rxDown := rfl
@[simp] theorem afterSend_env_txq (bs : List Byte) (s : State) : (afterSend bs s).env.txq = s.env.txq ++ sendEntered bs (sendChoice s) := rfl
@[simp] theorem afterSend_env_txDown (bs : List Byte) (s : State) : (afterSend bs s).env.txDown = s.env.txDown := rfl
@[simp] theorem afterSend_env_txStalled (bs : List Byte) (s : State) : (afterSend bs s).env.txStalled = s.env.txStalled := rfl
@[simp] theorem afterSend_env_recvChoices (bs : List Byte) (s : State) : (afterSend bs s).env.recvChoices = s.env.recvChoices := rfl
@[simp] theorem afterSend_env_sendChoices (bs : List Byte) (s : State) : (afterSend bs s).env.sendChoices = s.env.sendChoices.tail := rfl
@[simp] theorem afterSend_env_trace (bs : List Byte) (s : State) : (afterSend bs s).env.trace = s.env.trace := rfl
@[simp] theorem afterSend_env_free (bs : List Byte) (s : State) : (afterSend bs s).env.free = if s.env.sendChoices.isEmpty && s.env.txDown then s.env.free + 1 else s.env.free := rfl

/-! ### `afterRecv` -/

@[simp] theorem afterRecv_seg (s : State) : (afterRecv s).seg = s.seg := rfl
@[simp] theorem afterRecv_buf (s : State) : (afterRecv s).buf = s.buf := rfl
@[simp] theorem afterRecv_localSeq (s : State) : (afterRecv s).localSeq = s.localSeq := rfl
@[simp] theorem afterRecv_peerSeq (s : State) : (afterRecv s).peerSeq = s.peerSeq := rfl
@[simp] theorem afterRecv_stepIx (s : State) : (afterRecv s).stepIx = s.stepIx := rfl
@[simp] theorem afterRecv_op (s : State) : (afterRecv s).op = s.op := rfl
@[simp] theorem afterRecv_role (s : State) : (afterRecv s).role = s.role := rfl
@[simp] theorem afterRecv_localPort (s : State) : (afterRecv s).localPort = s.localPort := rfl
@[simp] theorem afterRecv_peerPort (s : State) : (afterRecv s).peerPort = s.peerPort := rfl
@[simp] theorem afterRecv_status (s : State) : (afterRecv s).status = s.status := rfl
@[simp] theorem afterRecv_err (s : State) : (afterRecv s).err = s.err := rfl
@[simp] theorem afterRecv_res (s : State) : (afterRecv s).res = s.res := rfl
@[simp] theorem afterRecv_env_inputs (s : State) : (afterRecv s).env.inputs = s.env.inputs := rfl
@[simp] theorem afterRecv_env_draws (s : State) : (afterRecv s).env.draws = s.env.draws := rfl
@[simp] theorem afterRecv_env_rxq (s : State) : (afterRecv s).env.rxq = s.env.rxq.drop (recvTakes s.env.rxq.length (recvChoice s)) := rfl
@[simp] theorem afterRecv_env_rxDown (s : State) : (afterRecv s).env.rxDown = s.env.rxDown := rfl
@[simp] theorem afterRecv_env_txq (s : State) : (afterRecv s).env.txq = s.env.txq := rfl
@[simp] theorem afterRecv_env_txDown (s : State) : (afterRecv s).env.txDown = s.env.txDown := rfl
@[simp] theorem afterRecv_env_txStalled (s : State) : (afterRecv s).env.txStalled = s.env.txStalled := rfl
@[simp] theorem afterRecv_env_recvChoices (s : State) : (afterRecv s).env.recvChoices = s.env.recvChoices.tail := rfl
@[simp] theorem afterRecv_env_sendChoices (s : State) : (afterRecv s).env.sendChoices = s.env.sendChoices := rfl
@[simp] theorem afterRecv_env_trace (s : State) : (afterRecv s).env.trace = s.env.trace := rfl
@[simp] theorem afterRecv_env_free (s : State) : (afterRecv s).env.free = if s.env.recvChoices.isEmpty && decide (s.env.rxq.length < 24) then s.env.free + 1 else s.env.free := rfl

/-! ### `bufUnspecified` -/

@[simp] theorem bufUnspecified_seg (s : State) : (bufUnspecified s).seg = s.seg := rfl
@[simp] theorem bufUnspecified_buf (s : State) : (bufUnspecified s).buf = Memory.ofBytes ((List.range 24).map (Config.freeByte s.env.free)) := rfl
@[simp] theorem bufUnspecified_localSeq (s : State) : (bufUnspecified s).localSeq = s.localSeq := rfl
@[simp] theorem bufUnspecified_peerSeq (s : State) : (bufUnspecified s).peerSeq = s.peerSeq := rfl
@[simp] theorem bufUnspecified_stepIx (s : State) : (bufUnspecified s).stepIx = s.stepIx := rfl
@[simp] theorem bufUnspecified_op (s : State) : (bufUnspecified s).op = s.op := rfl
@[simp] theorem bufUnspecified_role (s : State) : (bufUnspecified s).role = s.role := rfl
@[simp] theorem bufUnspecified_localPort (s : State) : (bufUnspecified s).localPort = s.localPort := rfl
@[simp] theorem bufUnspecified_peerPort (s : State) : (bufUnspecified s).peerPort = s.peerPort := rfl
@[simp] theorem bufUnspecified_status (s : State) : (bufUnspecified s).status = s.status := rfl
@[simp] theorem bufUnspecified_err (s : State) : (bufUnspecified s).err = s.err := rfl
@[simp] theorem bufUnspecified_res (s : State) : (bufUnspecified s).res = s.res := rfl
@[simp] theorem bufUnspecified_env_inputs (s : State) : (bufUnspecified s).env.inputs = s.env.inputs := rfl
@[simp] theorem bufUnspecified_env_draws (s : State) : (bufUnspecified s).env.draws = s.env.draws := rfl
@[simp] theorem bufUnspecified_env_rxq (s : State) : (bufUnspecified s).env.rxq = s.env.rxq := rfl
@[simp] theorem bufUnspecified_env_rxDown (s : State) : (bufUnspecified s).env.rxDown = s.env.rxDown := rfl
@[simp] theorem bufUnspecified_env_txq (s : State) : (bufUnspecified s).env.txq = s.env.txq := rfl
@[simp] theorem bufUnspecified_env_txDown (s : State) : (bufUnspecified s).env.txDown = s.env.txDown := rfl
@[simp] theorem bufUnspecified_env_txStalled (s : State) : (bufUnspecified s).env.txStalled = s.env.txStalled := rfl
@[simp] theorem bufUnspecified_env_recvChoices (s : State) : (bufUnspecified s).env.recvChoices = s.env.recvChoices := rfl
@[simp] theorem bufUnspecified_env_sendChoices (s : State) : (bufUnspecified s).env.sendChoices = s.env.sendChoices := rfl
@[simp] theorem bufUnspecified_env_trace (s : State) : (bufUnspecified s).env.trace = s.env.trace := rfl
@[simp] theorem bufUnspecified_env_free (s : State) : (bufUnspecified s).env.free = s.env.free + 1 := rfl

/-! ### `resetBlock` -/

@[simp] theorem resetBlock_seg (s : State) : (resetBlock s).seg = Segment.zero := rfl
@[simp] theorem resetBlock_buf (s : State) : (resetBlock s).buf = [] := rfl
@[simp] theorem resetBlock_localSeq (s : State) : (resetBlock s).localSeq = 0#32 := rfl
@[simp] theorem resetBlock_peerSeq (s : State) : (resetBlock s).peerSeq = 0#32 := rfl
@[simp] theorem resetBlock_stepIx (s : State) : (resetBlock s).stepIx = .s0 := rfl
@[simp] theorem resetBlock_op (s : State) : (resetBlock s).op = .openEx := rfl
@[simp] theorem resetBlock_role (s : State) : (resetBlock s).role = .initiator := rfl
@[simp] theorem resetBlock_localPort (s : State) : (resetBlock s).localPort = 0#16 := rfl
@[simp] theorem resetBlock_peerPort (s : State) : (resetBlock s).peerPort = 0#16 := rfl
@[simp] theorem resetBlock_status (s : State) : (resetBlock s).status = ⟨.idle, false⟩ := rfl
@[simp] theorem resetBlock_err (s : State) : (resetBlock s).err = ErrReg.zero := rfl
@[simp] theorem resetBlock_res (s : State) : (resetBlock s).res = 0#32 := rfl
@[simp] theorem resetBlock_env (s : State) : (resetBlock s).env = s.env := rfl

/-! ### `emitTrace` -/

@[simp] theorem emitTrace_seg (d : TraceDir) (s : State) : (emitTrace d s).seg = s.seg := rfl
@[simp] theorem emitTrace_buf (d : TraceDir) (s : State) : (emitTrace d s).buf = s.buf := rfl
@[simp] theorem emitTrace_localSeq (d : TraceDir) (s : State) : (emitTrace d s).localSeq = s.localSeq := rfl
@[simp] theorem emitTrace_peerSeq (d : TraceDir) (s : State) : (emitTrace d s).peerSeq = s.peerSeq := rfl
@[simp] theorem emitTrace_stepIx (d : TraceDir) (s : State) : (emitTrace d s).stepIx = s.stepIx := rfl
@[simp] theorem emitTrace_op (d : TraceDir) (s : State) : (emitTrace d s).op = s.op := rfl
@[simp] theorem emitTrace_role (d : TraceDir) (s : State) : (emitTrace d s).role = s.role := rfl
@[simp] theorem emitTrace_localPort (d : TraceDir) (s : State) : (emitTrace d s).localPort = s.localPort := rfl
@[simp] theorem emitTrace_peerPort (d : TraceDir) (s : State) : (emitTrace d s).peerPort = s.peerPort := rfl
@[simp] theorem emitTrace_status (d : TraceDir) (s : State) : (emitTrace d s).status = s.status := rfl
@[simp] theorem emitTrace_err (d : TraceDir) (s : State) : (emitTrace d s).err = s.err := rfl
@[simp] theorem emitTrace_res (d : TraceDir) (s : State) : (emitTrace d s).res = s.res := rfl
@[simp] theorem emitTrace_env_inputs (d : TraceDir) (s : State) : (emitTrace d s).env.inputs = s.env.inputs := rfl
@[simp] theorem emitTrace_env_draws (d : TraceDir) (s : State) : (emitTrace d s).env.draws = s.env.draws := rfl
@[simp] theorem emitTrace_env_rxq (d : TraceDir) (s : State) : (emitTrace d s).env.rxq = s.env.rxq := rfl
@[simp] theorem emitTrace_env_rxDown (d : TraceDir) (s : State) : (emitTrace d s).env.rxDown = s.env.rxDown := rfl
@[simp] theorem emitTrace_env_txq (d : TraceDir) (s : State) : (emitTrace d s).env.txq = s.env.txq := rfl
@[simp] theorem emitTrace_env_txDown (d : TraceDir) (s : State) : (emitTrace d s).env.txDown = s.env.txDown := rfl
@[simp] theorem emitTrace_env_txStalled (d : TraceDir) (s : State) : (emitTrace d s).env.txStalled = s.env.txStalled := rfl
@[simp] theorem emitTrace_env_recvChoices (d : TraceDir) (s : State) : (emitTrace d s).env.recvChoices = s.env.recvChoices := rfl
@[simp] theorem emitTrace_env_sendChoices (d : TraceDir) (s : State) : (emitTrace d s).env.sendChoices = s.env.sendChoices := rfl
@[simp] theorem emitTrace_env_trace (d : TraceDir) (s : State) : (emitTrace d s).env.trace = s.env.trace ++ [⟨d, s.op, s.role, s.stepIx, report s.seg⟩] := rfl
@[simp] theorem emitTrace_env_free (d : TraceDir) (s : State) : (emitTrace d s).env.free = s.env.free := rfl

/-! ### `mapSeg` -/

@[simp] theorem mapSeg_seg (f : Segment → Segment) (s : State) : (mapSeg f s).seg = f s.seg := rfl
@[simp] theorem mapSeg_buf (f : Segment → Segment) (s : State) : (mapSeg f s).buf = s.buf := rfl
@[simp] theorem mapSeg_localSeq (f : Segment → Segment) (s : State) : (mapSeg f s).localSeq = s.localSeq := rfl
@[simp] theorem mapSeg_peerSeq (f : Segment → Segment) (s : State) : (mapSeg f s).peerSeq = s.peerSeq := rfl
@[simp] theorem mapSeg_stepIx (f : Segment → Segment) (s : State) : (mapSeg f s).stepIx = s.stepIx := rfl
@[simp] theorem mapSeg_op (f : Segment → Segment) (s : State) : (mapSeg f s).op = s.op := rfl
@[simp] theorem mapSeg_role (f : Segment → Segment) (s : State) : (mapSeg f s).role = s.role := rfl
@[simp] theorem mapSeg_localPort (f : Segment → Segment) (s : State) : (mapSeg f s).localPort = s.localPort := rfl
@[simp] theorem mapSeg_peerPort (f : Segment → Segment) (s : State) : (mapSeg f s).peerPort = s.peerPort := rfl
@[simp] theorem mapSeg_status (f : Segment → Segment) (s : State) : (mapSeg f s).status = s.status := rfl
@[simp] theorem mapSeg_err (f : Segment → Segment) (s : State) : (mapSeg f s).err = s.err := rfl
@[simp] theorem mapSeg_res (f : Segment → Segment) (s : State) : (mapSeg f s).res = s.res := rfl
@[simp] theorem mapSeg_env (f : Segment → Segment) (s : State) : (mapSeg f s).env = s.env := rfl

/-! ### `ackPeer` -/

@[simp] theorem ackPeer_seg (s : State) : (ackPeer s).seg = { s.seg with ack := s.peerSeq + 1#32 } := rfl
@[simp] theorem ackPeer_buf (s : State) : (ackPeer s).buf = s.buf := rfl
@[simp] theorem ackPeer_localSeq (s : State) : (ackPeer s).localSeq = s.localSeq := rfl
@[simp] theorem ackPeer_peerSeq (s : State) : (ackPeer s).peerSeq = s.peerSeq := rfl
@[simp] theorem ackPeer_stepIx (s : State) : (ackPeer s).stepIx = s.stepIx := rfl
@[simp] theorem ackPeer_op (s : State) : (ackPeer s).op = s.op := rfl
@[simp] theorem ackPeer_role (s : State) : (ackPeer s).role = s.role := rfl
@[simp] theorem ackPeer_localPort (s : State) : (ackPeer s).localPort = s.localPort := rfl
@[simp] theorem ackPeer_peerPort (s : State) : (ackPeer s).peerPort = s.peerPort := rfl
@[simp] theorem ackPeer_status (s : State) : (ackPeer s).status = s.status := rfl
@[simp] theorem ackPeer_err (s : State) : (ackPeer s).err = s.err := rfl
@[simp] theorem ackPeer_res (s : State) : (ackPeer s).res = s.res := rfl
@[simp] theorem ackPeer_env (s : State) : (ackPeer s).env = s.env := rfl

/-! ### `followUpSegment` -/

@[simp] theorem followUpSegment_seg (s : State) : (followUpSegment s).seg = { fresh s.localPort s.peerPort (s.localSeq + 1#32) with ack := s.peerSeq + 1#32 } := rfl
@[simp] theorem followUpSegment_buf (s : State) : (followUpSegment s).buf = s.buf := rfl
@[simp] theorem followUpSegment_localSeq (s : State) : (followUpSegment s).localSeq = s.localSeq := rfl
@[simp] theorem followUpSegment_peerSeq (s : State) : (followUpSegment s).peerSeq = s.peerSeq := rfl
@[simp] theorem followUpSegment_stepIx (s : State) : (followUpSegment s).stepIx = s.stepIx := rfl
@[simp] theorem followUpSegment_op (s : State) : (followUpSegment s).op = s.op := rfl
@[simp] theorem followUpSegment_role (s : State) : (followUpSegment s).role = s.role := rfl
@[simp] theorem followUpSegment_localPort (s : State) : (followUpSegment s).localPort = s.localPort := rfl
@[simp] theorem followUpSegment_peerPort (s : State) : (followUpSegment s).peerPort = s.peerPort := rfl
@[simp] theorem followUpSegment_status (s : State) : (followUpSegment s).status = s.status := rfl
@[simp] theorem followUpSegment_err (s : State) : (followUpSegment s).err = s.err := rfl
@[simp] theorem followUpSegment_res (s : State) : (followUpSegment s).res = s.res := rfl
@[simp] theorem followUpSegment_env (s : State) : (followUpSegment s).env = s.env := rfl

/-! ### `drawnSegment` -/

@[simp] theorem drawnSegment_seg (p : Params) (s : State) : (drawnSegment p s).seg = fresh s.localPort s.peerPort (isn p (drawValue s)) := by simp [drawnSegment]
@[simp] theorem drawnSegment_buf (p : Params) (s : State) : (drawnSegment p s).buf = s.buf := by simp [drawnSegment]
@[simp] theorem drawnSegment_localSeq (p : Params) (s : State) : (drawnSegment p s).localSeq = isn p (drawValue s) := by simp [drawnSegment]
@[simp] theorem drawnSegment_peerSeq (p : Params) (s : State) : (drawnSegment p s).peerSeq = s.peerSeq := by simp [drawnSegment]
@[simp] theorem drawnSegment_stepIx (p : Params) (s : State) : (drawnSegment p s).stepIx = s.stepIx := by simp [drawnSegment]
@[simp] theorem drawnSegment_op (p : Params) (s : State) : (drawnSegment p s).op = s.op := by simp [drawnSegment]
@[simp] theorem drawnSegment_role (p : Params) (s : State) : (drawnSegment p s).role = s.role := by simp [drawnSegment]
@[simp] theorem drawnSegment_localPort (p : Params) (s : State) : (drawnSegment p s).localPort = s.localPort := by simp [drawnSegment]
@[simp] theorem drawnSegment_peerPort (p : Params) (s : State) : (drawnSegment p s).peerPort = s.peerPort := by simp [drawnSegment]
@[simp] theorem drawnSegment_status (p : Params) (s : State) : (drawnSegment p s).status = s.status := by simp [drawnSegment]
@[simp] theorem drawnSegment_err (p : Params) (s : State) : (drawnSegment p s).err = s.err := by simp [drawnSegment]
@[simp] theorem drawnSegment_res (p : Params) (s : State) : (drawnSegment p s).res = s.res := by simp [drawnSegment]
@[simp] theorem drawnSegment_env_inputs (p : Params) (s : State) : (drawnSegment p s).env.inputs = s.env.inputs := by simp [drawnSegment]
@[simp] theorem drawnSegment_env_draws (p : Params) (s : State) : (drawnSegment p s).env.draws = s.env.draws.tail := by simp [drawnSegment]
@[simp] theorem drawnSegment_env_rxq (p : Params) (s : State) : (drawnSegment p s).env.rxq = s.env.rxq := by simp [drawnSegment]
@[simp] theorem drawnSegment_env_rxDown (p : Params) (s : State) : (drawnSegment p s).env.rxDown = s.env.rxDown := by simp [drawnSegment]
@[simp] theorem drawnSegment_env_txq (p : Params) (s : State) : (drawnSegment p s).env.txq = s.env.txq := by simp [drawnSegment]
@[simp] theorem drawnSegment_env_txDown (p : Params) (s : State) : (drawnSegment p s).env.txDown = s.env.txDown := by simp [drawnSegment]
@[simp] theorem drawnSegment_env_txStalled (p : Params) (s : State) : (drawnSegment p s).env.txStalled = s.env.txStalled := by simp [drawnSegment]
@[simp] theorem drawnSegment_env_recvChoices (p : Params) (s : State) : (drawnSegment p s).env.recvChoices = s.env.recvChoices := by simp [drawnSegment]
@[simp] theorem drawnSegment_env_sendChoices (p : Params) (s : State) : (drawnSegment p s).env.sendChoices = s.env.sendChoices := by simp [drawnSegment]
@[simp] theorem drawnSegment_env_trace (p : Params) (s : State) : (drawnSegment p s).env.trace = s.env.trace := by simp [drawnSegment]
@[simp] theorem drawnSegment_env_free (p : Params) (s : State) : (drawnSegment p s).env.free = if s.env.draws = [] then s.env.free + 1 else s.env.free := by simp [drawnSegment]

/-! ### `latchPeer` -/

@[simp] theorem latchPeer_seg (s : State) : (latchPeer s).seg = s.seg := rfl
@[simp] theorem latchPeer_buf (s : State) : (latchPeer s).buf = s.buf := rfl
@[simp] theorem latchPeer_localSeq (s : State) : (latchPeer s).localSeq = s.localSeq := rfl
@[simp] theorem latchPeer_peerSeq (s : State) : (latchPeer s).peerSeq = s.seg.seq := rfl
@[simp] theorem latchPeer_stepIx (s : State) : (latchPeer s).stepIx = s.stepIx := rfl
@[simp] theorem latchPeer_op (s : State) : (latchPeer s).op = s.op := rfl
@[simp] theorem latchPeer_role (s : State) : (latchPeer s).role = s.role := rfl
@[simp] theorem latchPeer_localPort (s : State) : (latchPeer s).localPort = s.localPort := rfl
@[simp] theorem latchPeer_peerPort (s : State) : (latchPeer s).peerPort = s.peerPort := rfl
@[simp] theorem latchPeer_status (s : State) : (latchPeer s).status = s.status := rfl
@[simp] theorem latchPeer_err (s : State) : (latchPeer s).err = s.err := rfl
@[simp] theorem latchPeer_res (s : State) : (latchPeer s).res = s.res := rfl
@[simp] theorem latchPeer_env (s : State) : (latchPeer s).env = s.env := rfl

/-! ### `loadSend` -/

@[simp] theorem loadSend_seg (p : Params) (s : State) : (loadSend p s).seg = s.seg := by simp only [loadSend, emitTrace]
@[simp] theorem loadSend_buf (p : Params) (s : State) : (loadSend p s).buf = pack p.wireOrder s.seg := by simp only [loadSend, emitTrace]
@[simp] theorem loadSend_localSeq (p : Params) (s : State) : (loadSend p s).localSeq = s.localSeq := by simp only [loadSend, emitTrace]
@[simp] theorem loadSend_peerSeq (p : Params) (s : State) : (loadSend p s).peerSeq = s.peerSeq := by simp only [loadSend, emitTrace]
@[simp] theorem loadSend_stepIx (p : Params) (s : State) : (loadSend p s).stepIx = s.stepIx := by simp only [loadSend, emitTrace]
@[simp] theorem loadSend_op (p : Params) (s : State) : (loadSend p s).op = s.op := by simp only [loadSend, emitTrace]
@[simp] theorem loadSend_role (p : Params) (s : State) : (loadSend p s).role = s.role := by simp only [loadSend, emitTrace]
@[simp] theorem loadSend_localPort (p : Params) (s : State) : (loadSend p s).localPort = s.localPort := by simp only [loadSend, emitTrace]
@[simp] theorem loadSend_peerPort (p : Params) (s : State) : (loadSend p s).peerPort = s.peerPort := by simp only [loadSend, emitTrace]
@[simp] theorem loadSend_status (p : Params) (s : State) : (loadSend p s).status = s.status := by simp only [loadSend, emitTrace]
@[simp] theorem loadSend_err (p : Params) (s : State) : (loadSend p s).err = s.err := by simp only [loadSend, emitTrace]
@[simp] theorem loadSend_res (p : Params) (s : State) : (loadSend p s).res = s.res := by simp only [loadSend, emitTrace]
@[simp] theorem loadSend_env_inputs (p : Params) (s : State) : (loadSend p s).env.inputs = s.env.inputs := by simp only [loadSend, emitTrace]
@[simp] theorem loadSend_env_draws (p : Params) (s : State) : (loadSend p s).env.draws = s.env.draws := by simp only [loadSend, emitTrace]
@[simp] theorem loadSend_env_rxq (p : Params) (s : State) : (loadSend p s).env.rxq = s.env.rxq := by simp only [loadSend, emitTrace]
@[simp] theorem loadSend_env_rxDown (p : Params) (s : State) : (loadSend p s).env.rxDown = s.env.rxDown := by simp only [loadSend, emitTrace]
@[simp] theorem loadSend_env_txq (p : Params) (s : State) : (loadSend p s).env.txq = s.env.txq := by simp only [loadSend, emitTrace]
@[simp] theorem loadSend_env_txDown (p : Params) (s : State) : (loadSend p s).env.txDown = s.env.txDown := by simp only [loadSend, emitTrace]
@[simp] theorem loadSend_env_txStalled (p : Params) (s : State) : (loadSend p s).env.txStalled = s.env.txStalled := by simp only [loadSend, emitTrace]
@[simp] theorem loadSend_env_recvChoices (p : Params) (s : State) : (loadSend p s).env.recvChoices = s.env.recvChoices := by simp only [loadSend, emitTrace]
@[simp] theorem loadSend_env_sendChoices (p : Params) (s : State) : (loadSend p s).env.sendChoices = s.env.sendChoices := by simp only [loadSend, emitTrace]
@[simp] theorem loadSend_env_trace (p : Params) (s : State) : (loadSend p s).env.trace = s.env.trace ++ [⟨.tx, s.op, s.role, s.stepIx, report s.seg⟩] := by simp only [loadSend, emitTrace]
@[simp] theorem loadSend_env_free (p : Params) (s : State) : (loadSend p s).env.free = s.env.free := by simp only [loadSend, emitTrace]

/-! ### `latchSegment` -/

@[simp] theorem latchSegment_seg (p : Params) (r : List Byte) (s : State) : (latchSegment p r s).seg = unpack p.wireOrder (Memory.ofBytes r) := by simp only [latchSegment, emitTrace]
@[simp] theorem latchSegment_buf (p : Params) (r : List Byte) (s : State) : (latchSegment p r s).buf = Memory.ofBytes r := by simp only [latchSegment, emitTrace]
@[simp] theorem latchSegment_localSeq (p : Params) (r : List Byte) (s : State) : (latchSegment p r s).localSeq = s.localSeq := by simp only [latchSegment, emitTrace]
@[simp] theorem latchSegment_peerSeq (p : Params) (r : List Byte) (s : State) : (latchSegment p r s).peerSeq = s.peerSeq := by simp only [latchSegment, emitTrace]
@[simp] theorem latchSegment_stepIx (p : Params) (r : List Byte) (s : State) : (latchSegment p r s).stepIx = s.stepIx := by simp only [latchSegment, emitTrace]
@[simp] theorem latchSegment_op (p : Params) (r : List Byte) (s : State) : (latchSegment p r s).op = s.op := by simp only [latchSegment, emitTrace]
@[simp] theorem latchSegment_role (p : Params) (r : List Byte) (s : State) : (latchSegment p r s).role = s.role := by simp only [latchSegment, emitTrace]
@[simp] theorem latchSegment_localPort (p : Params) (r : List Byte) (s : State) : (latchSegment p r s).localPort = s.localPort := by simp only [latchSegment, emitTrace]
@[simp] theorem latchSegment_peerPort (p : Params) (r : List Byte) (s : State) : (latchSegment p r s).peerPort = s.peerPort := by simp only [latchSegment, emitTrace]
@[simp] theorem latchSegment_status (p : Params) (r : List Byte) (s : State) : (latchSegment p r s).status = s.status := by simp only [latchSegment, emitTrace]
@[simp] theorem latchSegment_err (p : Params) (r : List Byte) (s : State) : (latchSegment p r s).err = s.err := by simp only [latchSegment, emitTrace]
@[simp] theorem latchSegment_res (p : Params) (r : List Byte) (s : State) : (latchSegment p r s).res = s.res := by simp only [latchSegment, emitTrace]
@[simp] theorem latchSegment_env_inputs (p : Params) (r : List Byte) (s : State) : (latchSegment p r s).env.inputs = s.env.inputs := by simp only [latchSegment, emitTrace]
@[simp] theorem latchSegment_env_draws (p : Params) (r : List Byte) (s : State) : (latchSegment p r s).env.draws = s.env.draws := by simp only [latchSegment, emitTrace]
@[simp] theorem latchSegment_env_rxq (p : Params) (r : List Byte) (s : State) : (latchSegment p r s).env.rxq = s.env.rxq := by simp only [latchSegment, emitTrace]
@[simp] theorem latchSegment_env_rxDown (p : Params) (r : List Byte) (s : State) : (latchSegment p r s).env.rxDown = s.env.rxDown := by simp only [latchSegment, emitTrace]
@[simp] theorem latchSegment_env_txq (p : Params) (r : List Byte) (s : State) : (latchSegment p r s).env.txq = s.env.txq := by simp only [latchSegment, emitTrace]
@[simp] theorem latchSegment_env_txDown (p : Params) (r : List Byte) (s : State) : (latchSegment p r s).env.txDown = s.env.txDown := by simp only [latchSegment, emitTrace]
@[simp] theorem latchSegment_env_txStalled (p : Params) (r : List Byte) (s : State) : (latchSegment p r s).env.txStalled = s.env.txStalled := by simp only [latchSegment, emitTrace]
@[simp] theorem latchSegment_env_recvChoices (p : Params) (r : List Byte) (s : State) : (latchSegment p r s).env.recvChoices = s.env.recvChoices := by simp only [latchSegment, emitTrace]
@[simp] theorem latchSegment_env_sendChoices (p : Params) (r : List Byte) (s : State) : (latchSegment p r s).env.sendChoices = s.env.sendChoices := by simp only [latchSegment, emitTrace]
@[simp] theorem latchSegment_env_trace (p : Params) (r : List Byte) (s : State) : (latchSegment p r s).env.trace = s.env.trace ++ [⟨.rx, s.op, s.role, s.stepIx, report (unpack p.wireOrder (Memory.ofBytes r))⟩] := by simp only [latchSegment, emitTrace]
@[simp] theorem latchSegment_env_free (p : Params) (r : List Byte) (s : State) : (latchSegment p r s).env.free = s.env.free := by simp only [latchSegment, emitTrace]

end Sys2Proof.Machine
end

