-- ==== Sys2Proof/Laws/Channel.lean ====
section
/-! SUPPORT. What the shared operations can do, said once: each micro-sequence and each check by the case that holds. The
step rules are proved about by citing these. -/

namespace Sys2Proof.Machine

@[simp] theorem decided_wireOrder : decided.wireOrder = .le := rfl

@[simp] theorem decided_strictFlags : decided.strictFlags = false := rfl

@[simp] theorem decided_clearBug : decided.clearBug = false := rfl

/-- While no exchange runs, a command is accepted and does what it does. -/
theorem onCommandPort_accepts (act : State → State) {s : State} (h : s.status.run ≠ .busy) :
    onCommandPort act s = .next (act (acceptCommand s)) := by
  simp only [onCommandPort, if_neg h]

/-- While an exchange runs, a command is refused. -/
theorem onCommandPort_refuses (act : State → State) {s : State} (h : s.status.run = .busy) :
    onCommandPort act s = .next (refuseCommand s) := by
  simp only [onCommandPort, if_pos h]

/-- The drawn number: the draw modulo `ISN_MOD` (spec/40 R110). -/
theorem isn_decided_toNat (r : Word) : (isn decided r).toNat = r.toNat % 0xFFFFFFF0 := by
  simp [isn, decided]

/-! ### What a choice of the channel does not depend on -/

theorem sendChoice_congr {s t : State} (h1 : t.env.sendChoices = s.env.sendChoices) (h2 : t.env.txDown = s.env.txDown)
    (h3 : t.env.free = s.env.free) : sendChoice t = sendChoice s := by
  simp only [sendChoice, h1, h2, h3]

@[simp] theorem sendChoice_loadSend (p : Params) (s : State) : sendChoice (loadSend p s) = sendChoice s :=
  sendChoice_congr (by simp) (by simp) (by simp)

@[simp] theorem sendChoice_mapSeg (f : Segment → Segment) (s : State) : sendChoice (mapSeg f s) = sendChoice s :=
  sendChoice_congr (by simp) (by simp) (by simp)

@[simp] theorem sendChoice_ackPeer (s : State) : sendChoice (ackPeer s) = sendChoice s :=
  sendChoice_congr (by simp) (by simp) (by simp)

@[simp] theorem sendChoice_followUpSegment (s : State) : sendChoice (followUpSegment s) = sendChoice s :=
  sendChoice_congr (by simp) (by simp) (by simp)

@[simp] theorem sendChoice_drawnSegment (p : Params) (s : State) : sendChoice (drawnSegment p s) = sendChoice (drawTaken s) :=
  sendChoice_congr (by simp) (by simp) (by simp)

@[simp] theorem sendChoice_env_inputs (s : State) (is : List Input) :
    sendChoice { s with env := { s.env with inputs := is } } = sendChoice s := rfl

/-! ### The micro-sequences -/

/-- A blocked send step leaves the instance as it is. -/
theorem sendStep_blocked (p : Params) (build rest : State → State) {s : State} (h : sendBlocked s = true) :
    sendStep p build rest s = s := by
  simp only [sendStep, h, if_true]

/-- A send step that is not blocked builds the segment and sends it. -/
theorem sendStep_free (p : Params) (build rest : State → State) {s : State} (h : sendBlocked s = false) :
    sendStep p build rest s = sendSeg p (build s) rest := by
  simp only [sendStep, h, Bool.false_eq_true, if_false]

/-- A send that takes 24 bytes goes on with the rest of the step. -/
theorem sendSeg_whole (p : Params) {s : State} (rest : State → State) (h : sendAnswer (sendChoice s) = .count 24) :
    sendSeg p s rest = rest (afterSend (Memory.bytes (pack p.wireOrder s.seg)) (loadSend p s)) := by
  simp only [sendSeg, sendChoice_loadSend, h, if_true, loadSend_buf]

/-- A send that answers another count raises `ShortIo`. -/
theorem sendSeg_short (p : Params) {s : State} (rest : State → State) {n : Nat} (h : sendAnswer (sendChoice s) = .count n)
    (hn : n ≠ 24) :
    sendSeg p s rest =
      raise .shortIo { dir := .send, chanErr := false, expected := 24#32, observed := BitVec.ofNat 32 n }
        (afterSend (Memory.bytes (pack p.wireOrder s.seg)) (loadSend p s)) := by
  simp only [sendSeg, sendChoice_loadSend, h, if_neg hn, loadSend_buf]

/-- A send that answers `error` raises `ShortIo`. -/
theorem sendSeg_error (p : Params) {s : State} (rest : State → State) (h : sendAnswer (sendChoice s) = .error) :
    sendSeg p s rest =
      raise .shortIo { dir := .send, chanErr := true, expected := 24#32, observed := 0#32 }
        (afterSend (Memory.bytes (pack p.wireOrder s.seg)) (loadSend p s)) := by
  simp only [sendSeg, sendChoice_loadSend, h, loadSend_buf]

/-- A blocked receive leaves the instance as it is. -/
theorem recvSeg_blocked (p : Params) {s : State} (rest : State → State) (h : recvBlocked s = true) : recvSeg p s rest = s := by
  simp only [recvSeg, h, if_true]

/-- A receive of 24 bytes latches the segment and goes on with the rest of the step. -/
theorem recvSeg_whole (p : Params) {s : State} (rest : State → State) {r : List Byte} (h : recvBlocked s = false)
    (ha : recvAnswer s = .bytes r) (hr : r.length = 24) : recvSeg p s rest = rest (latchSegment p r (afterRecv s)) := by
  simp only [recvSeg, h, ha, hr, if_true, Bool.false_eq_true, if_false]

/-- A receive of any other number of bytes raises `ShortIo`. -/
theorem recvSeg_short (p : Params) {s : State} (rest : State → State) {r : List Byte} (h : recvBlocked s = false)
    (ha : recvAnswer s = .bytes r) (hr : r.length ≠ 24) :
    recvSeg p s rest =
      raise .shortIo
        { dir := .recv, chanErr := false, disc := r.length == 0, expected := 24#32, observed := BitVec.ofNat 32 r.length }
        (bufUnspecified (afterRecv s)) := by
  simp only [recvSeg, h, ha, if_neg hr, Bool.false_eq_true, if_false]

/-- A receive that answers `error` raises `ShortIo`. -/
theorem recvSeg_error (p : Params) {s : State} (rest : State → State) (h : recvBlocked s = false) (ha : recvAnswer s = .error) :
    recvSeg p s rest =
      raise .shortIo { dir := .recv, chanErr := true, disc := false, expected := 24#32, observed := 0#32 }
        (bufUnspecified (afterRecv s)) := by
  simp only [recvSeg, h, ha, Bool.false_eq_true, if_false]

/-! ### The checks -/

theorem requireChecksum_pass {s : State} (rest : State → State) (h : verify s.seg = true) : requireChecksum s rest = rest s := by
  simp only [requireChecksum, h, if_true]

theorem requireChecksum_fail {s : State} (rest : State → State) (h : verify s.seg = false) :
    requireChecksum s rest =
      raise .checksumMismatch { expected := (checksum s.seg).setWidth 32, observed := s.seg.csum.setWidth 32 } s := by
  simp only [requireChecksum, h, Bool.false_eq_true, if_false]

theorem requireSeq_pass {s : State} (rest : State → State) (h : s.seg.seq = s.peerSeq + 1#32) : requireSeq s rest = rest s := by
  simp only [requireSeq, if_pos h]

theorem requireSeq_fail {s : State} (rest : State → State) (h : s.seg.seq ≠ s.peerSeq + 1#32) :
    requireSeq s rest = raise .sequenceMismatch { expected := s.peerSeq + 1#32, observed := s.seg.seq } s := by
  simp only [requireSeq, if_neg h]

theorem requireAck_pass {e : Word} {s : State} (rest : State → State) (h : s.seg.ack = e) : requireAck e s rest = rest s := by
  simp only [requireAck, if_pos h]

theorem requireAck_fail {e : Word} {s : State} (rest : State → State) (h : s.seg.ack ≠ e) :
    requireAck e s rest = raise .acknowledgmentMismatch { expected := e, observed := s.seg.ack } s := by
  simp only [requireAck, if_neg h]

theorem requireFlag_pass {f : FlagId} {s : State} (rest : State → State) (h : checkFlag f s.seg = true) :
    requireFlag f s rest = rest s := by
  simp only [requireFlag, h, if_true]

theorem requireFlag_fail {f : FlagId} {s : State} (rest : State → State) (h : checkFlag f s.seg = false) :
    requireFlag f s rest =
      raise .flagMismatch { flag := f, expected := (flagMask f).setWidth 32, observed := (ctrlFlags s.seg.ctrl).setWidth 32 } s := by
  simp only [requireFlag, h, Bool.false_eq_true, if_false]

/-- Without `STRICT_FLAGS` the strict check is nothing. -/
theorem requireOnly_off {p : Params} (hp : p.strictFlags = false) (m : BitVec 6) (s : State) (rest : State → State) :
    requireOnly p m s rest = rest s := by
  simp only [requireOnly, hp, Bool.false_and, Bool.false_eq_true, if_false]

/-- The strict check passes exactly the required flags. -/
theorem requireOnly_same (p : Params) {m : BitVec 6} {s : State} (rest : State → State) (h : ctrlFlags s.seg.ctrl = m) :
    requireOnly p m s rest = rest s := by
  simp [requireOnly, h]

end Sys2Proof.Machine
end

