-- ==== Sys2Proof/Laws/Checksum.lean ====
section
/-! SUPPORT. The checksum: the accumulator as a plain sum, and what `stamp` leaves alone. -/

namespace Sys2Proof.Machine

theorem accumulate_from (ws : List Nat) (a : Nat) (h : a + ws.sum < 2 ^ 32) :
    ws.foldl (fun acc w => (acc + w) % 2 ^ 32) a = a + ws.sum := by
  induction ws generalizing a with
  | nil => simp
  | cons w ws ih =>
    simp only [List.sum_cons] at h
    have e : (a + w) % 2 ^ 32 = a + w := Nat.mod_eq_of_lt (by omega)
    rw [List.foldl_cons, e, ih (a + w) (by omega), List.sum_cons]
    omega

/-- A sum that fits the accumulator is what it holds. -/
theorem accumulate_eq_sum {ws : List Nat} (h : ws.sum < 2 ^ 32) : accumulate ws = ws.sum := by
  have := accumulate_from ws 0 (by omega)
  simpa [accumulate] using this

/-- The checksum does not look at the checksum field. -/
@[simp] theorem checksum_csum (g : Segment) (v : Half) : checksum { g with csum := v } = checksum g := by
  simp only [checksum, checksumWords]

@[simp] theorem stamp_sport (g : Segment) : (stamp g).sport = g.sport := by simp only [stamp]

@[simp] theorem stamp_dport (g : Segment) : (stamp g).dport = g.dport := by simp only [stamp]

@[simp] theorem stamp_seq (g : Segment) : (stamp g).seq = g.seq := by simp only [stamp]

@[simp] theorem stamp_ack (g : Segment) : (stamp g).ack = g.ack := by simp only [stamp]

@[simp] theorem stamp_ctrl (g : Segment) : (stamp g).ctrl = g.ctrl := by simp only [stamp]

@[simp] theorem stamp_win (g : Segment) : (stamp g).win = g.win := by simp only [stamp]

@[simp] theorem stamp_csum (g : Segment) : (stamp g).csum = checksum g := by simp only [stamp, checksum_csum]

@[simp] theorem stamp_urg (g : Segment) : (stamp g).urg = g.urg := by simp only [stamp]

@[simp] theorem stamp_opt (g : Segment) : (stamp g).opt = g.opt := by simp only [stamp]

@[simp] theorem checksum_stamp (g : Segment) : checksum (stamp g) = checksum g := by simp only [stamp, checksum_csum]

end Sys2Proof.Machine
end

