-- ==== Sys2Proof/Laws/Exec.lean ====
section
/-! SUPPORT. One lemma per instruction: what `exec` answers in the case where the instruction has its own effect, and what
`fetch` gives for each place a step takes its work from. -/

namespace Sys2Proof.Machine

variable {s : State}

theorem exec_create (a b : Half) (h : s.status.run ≠ .busy) :
    exec (.create a b) s = .next (createSeg decided a b (acceptCommand s)) := onCommandPort_accepts _ h

theorem exec_setFlag (f : FlagId) (h : s.status.run ≠ .busy) :
    exec (.setFlag f) s = .next (mapSeg (setFlag f) (acceptCommand s)) := by
  simp only [exec, execSetFlag, onCommandPort_accepts _ h, mapSeg]

theorem exec_clearFlag (f : FlagId) (h : s.status.run ≠ .busy) :
    exec (.clearFlag f) s = .next (mapSeg (clearFlag decided f) (acceptCommand s)) := by
  simp only [exec, execClearFlag, onCommandPort_accepts _ h, mapSeg]

theorem exec_checkFlag (f : FlagId) (h : s.status.run ≠ .busy) :
    exec (.checkFlag f) s = .next (setRes (boolWord (checkFlag f s.seg)) (acceptCommand s)) := by
  simp only [exec, execCheckFlag, onCommandPort_accepts _ h, acceptCommand_seg]

theorem exec_getOff (h : s.status.run ≠ .busy) :
    exec .getOff s = .next (setRes ((ctrlHlen s.seg.ctrl).setWidth 32) (acceptCommand s)) := by
  simp only [exec, execGetOff, onCommandPort_accepts _ h, acceptCommand_seg]

theorem exec_getRsv (h : s.status.run ≠ .busy) :
    exec .getRsv s = .next (setRes ((ctrlReserved s.seg.ctrl).setWidth 32) (acceptCommand s)) := by
  simp only [exec, execGetRsv, onCommandPort_accepts _ h, acceptCommand_seg]

theorem exec_pack (h : s.status.run ≠ .busy) :
    exec .pack s = .next { acceptCommand s with buf := pack .le s.seg } := by
  simp only [exec, execPack, onCommandPort_accepts _ h, acceptCommand_seg, decided_wireOrder]

theorem exec_unpack (h : s.status.run ≠ .busy) :
    exec .unpack s = .next { acceptCommand s with seg := unpack .le s.buf } := by
  simp only [exec, execUnpack, onCommandPort_accepts _ h, acceptCommand_buf, decided_wireOrder]

theorem exec_report (h : s.status.run ≠ .busy) : exec .report s = .next (emitTrace .rpt (acceptCommand s)) :=
  onCommandPort_accepts _ h

theorem exec_checksum (h : s.status.run ≠ .busy) :
    exec .checksum s = .next (setRes ((checksum s.seg).setWidth 32) (acceptCommand s)) := by
  simp only [exec, execChecksum, onCommandPort_accepts _ h, acceptCommand_seg]

theorem exec_stamp (h : s.status.run ≠ .busy) : exec .stamp s = .next (mapSeg stamp (acceptCommand s)) := by
  simp only [exec, execStamp, onCommandPort_accepts _ h, mapSeg]

theorem exec_verify (h : s.status.run ≠ .busy) :
    exec .verify s = .next (setRes (boolWord (verify s.seg)) (acceptCommand s)) := by
  simp only [exec, execVerify, onCommandPort_accepts _ h, acceptCommand_seg]

theorem exec_openI (a b : Half) (h : s.status.run ≠ .busy) :
    exec (.openI a b) s = .next (enterExchange .openEx .initiator a b (acceptCommand s)) := onCommandPort_accepts _ h

theorem exec_openR (a b : Half) (h : s.status.run ≠ .busy) :
    exec (.openR a b) s = .next (enterExchange .openEx .responder a b (acceptCommand s)) := onCommandPort_accepts _ h

theorem exec_closeI (a b : Half) (h : s.status.run ≠ .busy) :
    exec (.closeI a b) s = .next (enterExchange .closeEx .initiator a b (acceptCommand s)) := onCommandPort_accepts _ h

theorem exec_closeR (a b : Half) (h : s.status.run ≠ .busy) :
    exec (.closeR a b) s = .next (enterExchange .closeEx .responder a b (acceptCommand s)) := onCommandPort_accepts _ h

theorem exec_segSyn (h : activeStep s = some .oiSendRequest) : exec .segSyn s = .next (oiSendRequest decided s) := by
  simp only [exec, execSegSyn, if_pos h]

theorem exec_segSynAck (h : activeStep s = some .orSendGrant) : exec .segSynAck s = .next (orSendGrant decided s) := by
  simp only [exec, execSegSynAck, if_pos h]

theorem exec_segAck_open (h : activeStep s = some .oiSendAck) : exec .segAck s = .next (oiSendAck decided s) := by
  simp only [exec, execSegAck, if_pos h]

theorem exec_segAck_close (h : activeStep s = some .ciSendAck2) : exec .segAck s = .next (ciSendAck2 decided s) := by
  simp [exec, execSegAck, h]

theorem exec_segAck_first (h : activeStep s = some .crSendAck) : exec .segAck s = .next (crSendAck decided s) := by
  simp [exec, execSegAck, h]

theorem exec_segFin_initiator (h : activeStep s = some .ciSendFin) : exec .segFin s = .next (ciSendFin decided s) := by
  simp only [exec, execSegFin, if_pos h]

theorem exec_segFin_template (h : activeStep s = some .crSendFin) : exec .segFin s = .next (crSendFin decided s) := by
  simp [exec, execSegFin, h]

/-! ### Where a step takes its work from -/

theorem activeStep_eq {e : ExStep} (h : activeStep s = some e) : s.status.run = .busy ∧ stepAt s.op s.role s.stepIx = some e := by
  simp only [activeStep] at h
  split at h
  · exact ⟨‹_›, h⟩
  · exact absurd h (by simp)

theorem fetch_input {i : Input} {rest : List Input} (h : s.env.inputs = i :: rest) :
    fetch s = fetchInput i { s with env := { s.env with inputs := rest } } := by
  simp only [fetch, h]

theorem fetch_free (h : s.env.inputs = []) : fetch s = fetchOwn s := by
  simp only [fetch, h]

theorem fetchOwn_idle (h : s.status.run ≠ .busy) : fetchOwn s = .plain s := by
  simp only [fetchOwn, if_neg h]

theorem fetchOwn_stuck (h : s.status.run = .busy) (hs : stepAt s.op s.role s.stepIx = none) : fetchOwn s = .stuck := by
  simp only [fetchOwn, if_pos h, hs]

theorem fetchOwn_send {e : ExStep} {w : Half} (h : activeStep s = some e) (hb : builtControl e = some w) :
    fetchOwn s = .word (.ctrl w) s := by
  obtain ⟨h1, h2⟩ := activeStep_eq h
  simp only [fetchOwn, if_pos h1, h2, hb]

theorem fetchOwn_receive {e : ExStep} (h : activeStep s = some e) (hb : builtControl e = none) :
    fetchOwn s = .plain (receiveStep decided e s) := by
  obtain ⟨h1, h2⟩ := activeStep_eq h
  simp only [fetchOwn, if_pos h1, h2, hb]

end Sys2Proof.Machine
end

