-- ==== Sys2Proof/Laws/Flags.lean ====
section
/-! SUPPORT. The control word bit by bit: what each flag operation does to bit `k`. -/

namespace Sys2Proof.Machine

theorem pos_lt (f : FlagId) : f.pos < 6 := by cases f <;> decide

theorem pos_inj {f h : FlagId} : f.pos = h.pos ↔ f = h := by cases f <;> cases h <;> decide

theorem flagMask_getLsbD (f : FlagId) (k : Nat) : (flagMask f).getLsbD k = decide (k = f.pos) := by
  have hp := pos_lt f
  simp only [flagMask, BitVec.getLsbD_shiftLeft]
  by_cases hk : k < 16
  · by_cases h : k < f.pos
    · simp [h, Nat.ne_of_lt h]
    · have : (1#16).getLsbD (k - f.pos) = decide (k - f.pos = 0) := by simp
      simp only [hk, h, this, decide_true, Bool.true_and, decide_false, Bool.not_false]
      congr 1
      simp only [eq_iff_iff]
      omega
  · have : k ≠ f.pos := by omega
    simp [hk, this]

/-- A flag test is the bit. -/
theorem ctrlHas_eq (f : FlagId) (c : Half) : ctrlHas f c = c.getLsbD f.pos := by
  have h : (c >>> f.pos) &&& 1#16 = if c.getLsbD f.pos then 1#16 else 0#16 := by
    apply BitVec.eq_of_getLsbD_eq
    intro i hi
    rcases Nat.eq_zero_or_pos i with rfl | hi0
    · by_cases hc : c.getLsbD f.pos <;> simp [hc]
    · by_cases hc : c.getLsbD f.pos <;> simp [hc, Nat.ne_of_gt hi0]
  unfold ctrlHas
  rw [h]
  by_cases hc : c.getLsbD f.pos <;> simp [hc]

/-- What `SETFLAG` does to bit `k`. -/
theorem ctrlSet_getLsbD (f : FlagId) (c : Half) (k : Nat) :
    (ctrlSet f c).getLsbD k = (decide (k = f.pos) || c.getLsbD k) := by
  simp [ctrlSet, flagMask_getLsbD, Bool.or_comm]

/-- What the corrected `CLEARFLAG` does to bit `k`. -/
theorem ctrlClear_getLsbD {p : Params} (hp : p.clearBug = false) (f : FlagId) (c : Half) (k : Nat) :
    (ctrlClear p f c).getLsbD k = (!decide (k = f.pos) && c.getLsbD k) := by
  simp only [ctrlClear, hp, Bool.false_eq_true, if_false, BitVec.getLsbD_and, BitVec.getLsbD_not, flagMask_getLsbD]
  by_cases hk : k < 16
  · simp [hk, Bool.and_comm]
  · simp [BitVec.getLsbD_of_ge c k (by omega)]

/-- Under the parameter `CLEAR_BUG` the whole control word is cleared (spec/40 R120). -/
theorem ctrlClear_bug {p : Params} (hp : p.clearBug = true) (f : FlagId) (c : Half) : ctrlClear p f c = 0#16 := by
  simp [ctrlClear, hp]

theorem checkFlag_eq (f : FlagId) (g : Segment) : checkFlag f g = g.ctrl.getLsbD f.pos := ctrlHas_eq f g.ctrl

@[simp] theorem setFlag_ctrl (f : FlagId) (g : Segment) : (setFlag f g).ctrl = ctrlSet f g.ctrl := rfl

@[simp] theorem clearFlag_ctrl (p : Params) (f : FlagId) (g : Segment) : (clearFlag p f g).ctrl = ctrlClear p f g.ctrl := rfl

/-! ### The subfields as numbers -/

theorem ctrlFlags_toNat (c : Half) : (ctrlFlags c).toNat = c.toNat % 64 := by
  have h : c.toNat &&& 63 = c.toNat % 64 := Nat.and_two_pow_sub_one_eq_mod c.toNat 6
  simp only [ctrlFlags, BitVec.toNat_setWidth, BitVec.toNat_and, BitVec.toNat_ofNat, Nat.reducePow, Nat.reduceMod, h]
  omega

theorem ctrlReserved_toNat (c : Half) : (ctrlReserved c).toNat = c.toNat / 64 % 64 := by
  have h : ∀ c : Half, ((c &&& 0x0FC0#16) >>> 6).setWidth 6 = (c >>> 6).setWidth 6 := by
    intro c
    apply BitVec.eq_of_getLsbD_eq
    intro i hi
    have : ∀ j : Fin 6, (0x0FC0#16).getLsbD (6 + j.val) = true := by decide
    simp [hi, this ⟨i, hi⟩]
  rw [ctrlReserved, h]
  simp [Nat.shiftRight_eq_div_pow]

theorem ctrlHlen_toNat (c : Half) : (ctrlHlen c).toNat = c.toNat / 4096 := by
  have h : ∀ c : Half, ((c &&& 0xF000#16) >>> 12).setWidth 4 = (c >>> 12).setWidth 4 := by
    intro c
    apply BitVec.eq_of_getLsbD_eq
    intro i hi
    have : ∀ j : Fin 4, (0xF000#16).getLsbD (12 + j.val) = true := by decide
    simp [hi, this ⟨i, hi⟩]
  rw [ctrlHlen, h]
  have := c.isLt
  simp [Nat.shiftRight_eq_div_pow]
  omega

end Sys2Proof.Machine
end

