-- ==== Sys2Proof/Laws/Memory.lean ====
section
/-! SUPPORT. `BUF`: reading after writing, the canonical form and that every memory operation keeps it, and canonical
memories with the same bytes being equal. -/

namespace Sys2Proof.Machine

theorem wfFrom_mono {m : Memory} {lo lo' : Nat} (h : Memory.wfFrom lo m = true) (hl : lo' ≤ lo) :
    Memory.wfFrom lo' m = true := by
  cases m with
  | nil => rfl
  | cons c m =>
    obtain ⟨k, b⟩ := c
    simp only [Memory.wfFrom, Bool.and_eq_true, decide_eq_true_eq] at h ⊢
    exact ⟨⟨⟨by omega, h.1.1.2⟩, h.1.2⟩, h.2⟩

/-- An offset below a canonical list reads as 0. -/
theorem read_below {m : Memory} {lo a : Nat} (h : Memory.wfFrom lo m = true) (ha : a < lo) : Memory.read m a = 0#8 := by
  induction m generalizing lo with
  | nil => rfl
  | cons c m ih =>
    obtain ⟨k, b⟩ := c
    simp only [Memory.wfFrom, Bool.and_eq_true, decide_eq_true_eq] at h
    have hk : k ≠ a := by omega
    simp only [Memory.read, if_neg hk]
    exact ih h.2 (by omega)

/-- Read after write. -/
theorem read_write {m : Memory} {lo a : Nat} (v : Byte) (x : Nat) (h : Memory.wfFrom lo m = true) :
    Memory.read (Memory.write m a v) x = if a = x then v else Memory.read m x := by
  induction m generalizing lo with
  | nil =>
    by_cases hv : v = 0#8
    · subst hv; simp [Memory.write, Memory.read]
    · simp [Memory.write, hv, Memory.read]
  | cons c m ih =>
    obtain ⟨k, b⟩ := c
    have hw := h
    simp only [Memory.wfFrom, Bool.and_eq_true, decide_eq_true_eq] at h
    rcases Nat.lt_trichotomy a k with hak | hak | hak
    · have hr : Memory.read ((k, b) :: m) a = 0#8 :=
        read_below (lo := a + 1) (by
          simp only [Memory.wfFrom, Bool.and_eq_true, decide_eq_true_eq]
          exact ⟨⟨⟨by omega, h.1.1.2⟩, h.1.2⟩, h.2⟩) (by omega)
      by_cases hv : v = 0#8
      · simp only [Memory.write, if_pos hak, if_pos hv]
        split
        · next hx => rw [← hx, hr, hv]
        · rfl
      · simp only [Memory.write, if_pos hak, if_neg hv]
        conv => lhs; rw [Memory.read]
    · subst hak
      have hr : Memory.read m a = 0#8 := read_below h.2 (by omega)
      by_cases hv : v = 0#8
      · simp only [Memory.write, Nat.lt_irrefl, if_false, if_true, if_pos hv, Memory.read]
        split
        · next hx => rw [← hx, hr, hv]
        · rfl
      · simp only [Memory.write, Nat.lt_irrefl, if_false, if_true, if_neg hv, Memory.read]
        split <;> rfl
    · have h1 : ¬ a < k := by omega
      have h2 : ¬ a = k := by omega
      simp only [Memory.write, if_neg h1, if_neg h2, Memory.read]
      by_cases hkx : k = x
      · have hax : ¬ a = x := by omega
        simp only [if_pos hkx, if_neg hax]
      · simp only [if_neg hkx]
        exact ih h.2

theorem write_wfFrom {m : Memory} {lo a : Nat} (v : Byte) (h : Memory.wfFrom lo m = true) (hlo : lo ≤ a) (ha : a < 24) :
    Memory.wfFrom lo (Memory.write m a v) = true := by
  induction m generalizing lo with
  | nil => by_cases hv : v = 0#8 <;> simp [Memory.write, Memory.wfFrom, hv, hlo, ha]
  | cons c m ih =>
    obtain ⟨k, b⟩ := c
    have hw := h
    simp only [Memory.wfFrom, Bool.and_eq_true, decide_eq_true_eq] at h
    obtain ⟨⟨⟨h1, h2⟩, h3⟩, h4⟩ := h
    rcases Nat.lt_trichotomy a k with hak | hak | hak
    · by_cases hv : v = 0#8
      · simpa only [Memory.write, if_pos hak, if_pos hv] using hw
      · simp only [Memory.write, if_pos hak, if_neg hv, Memory.wfFrom, Bool.and_eq_true, decide_eq_true_eq]
        exact ⟨⟨⟨hlo, ha⟩, hv⟩, ⟨⟨by omega, h2⟩, h3⟩, h4⟩
    · subst hak
      by_cases hv : v = 0#8
      · simp only [Memory.write, Nat.lt_irrefl, if_false, if_true, if_pos hv]
        exact wfFrom_mono h4 (by omega)
      · simp only [Memory.write, Nat.lt_irrefl, if_false, if_true, if_neg hv, Memory.wfFrom, Bool.and_eq_true, decide_eq_true_eq]
        exact ⟨⟨⟨hlo, ha⟩, hv⟩, h4⟩
    · have e1 : ¬ a < k := by omega
      have e2 : ¬ a = k := by omega
      simp only [Memory.write, if_neg e1, if_neg e2, Memory.wfFrom, Bool.and_eq_true, decide_eq_true_eq]
      exact ⟨⟨⟨h1, h2⟩, h3⟩, ih h4 (by omega)⟩

/-- A byte written into the buffer keeps the canonical form. -/
theorem write_wf {m : Memory} {a : Nat} (v : Byte) (h : Memory.wf m = true) (ha : a < 24) :
    Memory.wf (Memory.write m a v) = true :=
  write_wfFrom v h (Nat.zero_le a) ha

theorem read_outside {m : Memory} {lo a : Nat} (h : Memory.wfFrom lo m = true) (ha : 24 ≤ a) : Memory.read m a = 0#8 := by
  induction m generalizing lo with
  | nil => rfl
  | cons c m ih =>
    obtain ⟨k, b⟩ := c
    simp only [Memory.wfFrom, Bool.and_eq_true, decide_eq_true_eq] at h
    have hk : k ≠ a := by omega
    simp only [Memory.read, if_neg hk]
    exact ih h.2

/-- Canonical memories that read the same are equal. -/
theorem wfFrom_ext {m m' : Memory} {lo lo' : Nat} (h : Memory.wfFrom lo m = true) (h' : Memory.wfFrom lo' m' = true)
    (hr : ∀ a, Memory.read m a = Memory.read m' a) : m = m' := by
  induction m generalizing lo lo' m' with
  | nil =>
    cases m' with
    | nil => rfl
    | cons c m' =>
      obtain ⟨k, b⟩ := c
      simp only [Memory.wfFrom, Bool.and_eq_true, decide_eq_true_eq] at h'
      have := hr k
      simp only [Memory.read, if_true] at this
      exact absurd this.symm h'.1.2
  | cons c m ih =>
    obtain ⟨k, b⟩ := c
    have hw := h
    simp only [Memory.wfFrom, Bool.and_eq_true, decide_eq_true_eq] at h
    cases m' with
    | nil =>
      have := hr k
      simp only [Memory.read, if_true] at this
      exact absurd this h.1.2
    | cons c' m' =>
      obtain ⟨k', b'⟩ := c'
      have hw' := h'
      simp only [Memory.wfFrom, Bool.and_eq_true, decide_eq_true_eq] at h'
      have hkk : k = k' := by
        rcases Nat.lt_trichotomy k k' with hlt | he | hlt
        · exfalso
          have h0 := hr k
          have hz : Memory.read m' k = 0#8 := read_below h'.2 (by omega)
          have hne : ¬ k' = k := by omega
          simp only [Memory.read, if_true, if_neg hne, hz] at h0
          exact h.1.2 h0
        · exact he
        · exfalso
          have h0 := hr k'
          have hz : Memory.read m k' = 0#8 := read_below h.2 (by omega)
          have hne : ¬ k = k' := by omega
          simp only [Memory.read, if_true, if_neg hne, hz] at h0
          exact h'.1.2 h0.symm
      subst hkk
      have hb : b = b' := by
        have h0 := hr k
        simpa only [Memory.read, if_true] using h0
      subst hb
      have hm : m = m' := by
        refine ih h.2 h'.2 fun a => ?_
        by_cases hka : k = a
        · subst hka
          rw [read_below h.2 (by omega), read_below h'.2 (by omega)]
        · have h0 := hr a
          simpa only [Memory.read, if_neg hka] using h0
      rw [hm]

theorem wf_ext {m m' : Memory} (h : Memory.wf m = true) (h' : Memory.wf m' = true)
    (hr : ∀ a, a < 24 → Memory.read m a = Memory.read m' a) : m = m' :=
  wfFrom_ext h h' fun a =>
    if ha : a < 24 then hr a ha
    else by rw [read_outside h (by omega), read_outside h' (by omega)]

theorem load_wfFrom {bs : List Byte} {i : Nat} (h : i + bs.length ≤ 24) : Memory.wfFrom i (Memory.load i bs) = true := by
  induction bs generalizing i with
  | nil => rfl
  | cons b bs ih =>
    simp only [List.length_cons] at h
    by_cases hb : b = 0#8
    · simp only [Memory.load, if_pos hb]
      exact wfFrom_mono (ih (by omega)) (by omega)
    · simp only [Memory.load, if_neg hb, Memory.wfFrom, Bool.and_eq_true, decide_eq_true_eq]
      exact ⟨⟨⟨Nat.le_refl i, by omega⟩, hb⟩, ih (by omega)⟩

theorem read_load {bs : List Byte} {i : Nat} (h : i + bs.length ≤ 24) (a : Nat) :
    Memory.read (Memory.load i bs) (i + a) = bs.getD a 0#8 := by
  induction bs generalizing i a with
  | nil => simp [Memory.load, Memory.read]
  | cons b bs ih =>
    simp only [List.length_cons] at h
    have hbel : Memory.read (Memory.load (i + 1) bs) i = 0#8 := read_below (load_wfFrom (by omega)) (by omega)
    cases a with
    | zero =>
      by_cases hb : b = 0#8
      · simp [Memory.load, hb, hbel]
      · simp [Memory.load, hb, Memory.read]
    | succ a =>
      have hi : i + (a + 1) = (i + 1) + a := by omega
      have hne : ¬ i = i + 1 + a := by omega
      by_cases hb : b = 0#8
      · simp only [Memory.load, if_pos hb, hi, ih (i := i + 1) (by omega), List.getD_cons_succ]
      · simp only [Memory.load, if_neg hb, Memory.read, hi, if_neg hne, ih (i := i + 1) (by omega), List.getD_cons_succ]

/-- The memory of 24 bytes is canonical. -/
theorem ofBytes_wf {bs : List Byte} (h : bs.length ≤ 24) : Memory.wf (Memory.ofBytes bs) = true :=
  load_wfFrom (by omega)

theorem read_ofBytes {bs : List Byte} (h : bs.length ≤ 24) (a : Nat) : Memory.read (Memory.ofBytes bs) a = bs.getD a 0#8 := by
  have := read_load (bs := bs) (i := 0) (by omega) a
  simpa [Memory.ofBytes] using this

@[simp] theorem bytes_length (m : Memory) : (Memory.bytes m).length = 24 := by simp [Memory.bytes]

theorem bytes_getD (m : Memory) {a : Nat} (h : a < 24) : (Memory.bytes m).getD a 0#8 = Memory.read m a := by
  simp [Memory.bytes, List.getD, h]

/-- The bytes of the memory of 24 bytes are those bytes. -/
theorem bytes_ofBytes {bs : List Byte} (h : bs.length = 24) : Memory.bytes (Memory.ofBytes bs) = bs := by
  apply List.ext_getElem
  · simp [h]
  · intro i h1 h2
    simp only [Memory.bytes, List.getElem_map, List.getElem_range, read_ofBytes (by omega : bs.length ≤ 24)]
    simp [List.getD, h2]

/-- The memory of a canonical memory's bytes is that memory. -/
theorem ofBytes_bytes {m : Memory} (h : Memory.wf m = true) : Memory.ofBytes (Memory.bytes m) = m :=
  wf_ext (ofBytes_wf (by simp)) h fun a ha => by rw [read_ofBytes (by simp), bytes_getD m ha]

/-! ### `MemRead` and `MemWrite` -/

theorem foldl_write_wf {m : Memory} {addr : Nat} (f : Nat → Byte) (h : Memory.wf m = true) (ks : List Nat)
    (hk : ∀ k ∈ ks, addr + k < 24) :
    Memory.wf (ks.foldl (fun m k => Memory.write m (addr + k) (f k)) m) = true := by
  induction ks generalizing m with
  | nil => exact h
  | cons k ks ih =>
    exact ih (write_wf _ h (hk k (by simp))) fun j hj => hk j (by simp [hj])

theorem read_foldl_write {m : Memory} {addr : Nat} (f : Nat → Byte) (h : Memory.wf m = true) (ks : List Nat)
    (hk : ∀ k ∈ ks, addr + k < 24) (hnd : ks.Nodup) (x : Nat) :
    Memory.read (ks.foldl (fun m k => Memory.write m (addr + k) (f k)) m) x =
      if addr ≤ x ∧ (x - addr) ∈ ks then f (x - addr) else Memory.read m x := by
  induction ks generalizing m with
  | nil => simp
  | cons k ks ih =>
    have hkk := hk k (by simp)
    simp only [List.nodup_cons] at hnd
    rw [List.foldl_cons, ih (write_wf _ h hkk) (fun j hj => hk j (by simp [hj])) hnd.2, read_write _ _ h]
    by_cases hx : addr ≤ x ∧ x - addr ∈ ks
    · have : x - addr ∈ k :: ks := by simp [hx.2]
      simp [hx.1, hx.2]
    · rw [if_neg hx]
      by_cases he : addr + k = x
      · have e2 : x - addr = k := by omega
        have : addr ≤ x ∧ x - addr ∈ k :: ks := ⟨by omega, by simp [e2]⟩
        rw [if_pos he, if_pos this, e2]
      · have : ¬ (addr ≤ x ∧ x - addr ∈ k :: ks) := by
          rintro ⟨h1, h2⟩
          rcases List.mem_cons.mp h2 with h3 | h3
          · omega
          · exact hx ⟨h1, h3⟩
        rw [if_neg he, if_neg this]

/-- `MemWrite` keeps the canonical form. -/
theorem memWrite_wf (o : WireOrder) {m : Memory} {addr n : Nat} (v : Nat) (h : Memory.wf m = true) (ha : addr + n ≤ 24) :
    Memory.wf (memWrite o m addr n v) = true :=
  foldl_write_wf _ h _ fun k hk => by have := List.mem_range.mp hk; omega

/-- What a byte reads as after `MemWrite`: the field's byte inside the field, unchanged outside. -/
theorem read_memWrite (o : WireOrder) {m : Memory} {addr n : Nat} (v : Nat) (h : Memory.wf m = true) (ha : addr + n ≤ 24)
    (x : Nat) :
    Memory.read (memWrite o m addr n v) x =
      if addr ≤ x ∧ x < addr + n then BitVec.ofNat 8 (v / 256 ^ byteWeight o n (x - addr)) else Memory.read m x := by
  unfold memWrite
  rw [read_foldl_write _ h _ (fun k hk => by have := List.mem_range.mp hk; omega) List.nodup_range]
  congr 1
  simp only [List.mem_range, eq_iff_iff]
  omega

theorem range_two : List.range 2 = [0, 1] := by decide

theorem range_four : List.range 4 = [0, 1, 2, 3] := by decide

theorem weigh_two_le (x y : Nat) : 256 ^ 0 * x + (256 ^ 1 * y + 0) = x + 256 * y := by omega

theorem weigh_two_be (x y : Nat) : 256 ^ (2 - 1 - 0) * x + (256 ^ (2 - 1 - 1) * y + 0) = 256 * x + y := by omega

theorem weigh_four_le (x y z w : Nat) :
    256 ^ 0 * x + (256 ^ 1 * y + (256 ^ 2 * z + (256 ^ 3 * w + 0))) = x + 256 * y + 65536 * z + 16777216 * w := by
  omega

theorem weigh_four_be (x y z w : Nat) :
    256 ^ (4 - 1 - 0) * x + (256 ^ (4 - 1 - 1) * y + (256 ^ (4 - 1 - 2) * z + (256 ^ (4 - 1 - 3) * w + 0))) =
      16777216 * x + 65536 * y + 256 * z + w := by
  simp only [Nat.reduceSub, Nat.reducePow]
  omega

theorem memRead_two_le (m : Memory) (a : Nat) :
    memRead .le m a 2 = (Memory.read m a).toNat + 256 * (Memory.read m (a + 1)).toNat := by
  unfold memRead
  rw [range_two]
  simp only [byteWeight, List.map_cons, List.map_nil, List.sum_cons, List.sum_nil]
  exact weigh_two_le _ _

theorem memRead_two_be (m : Memory) (a : Nat) :
    memRead .be m a 2 = 256 * (Memory.read m a).toNat + (Memory.read m (a + 1)).toNat := by
  unfold memRead
  rw [range_two]
  simp only [byteWeight, List.map_cons, List.map_nil, List.sum_cons, List.sum_nil]
  exact weigh_two_be _ _

theorem memRead_four_le (m : Memory) (a : Nat) :
    memRead .le m a 4 = (Memory.read m a).toNat + 256 * (Memory.read m (a + 1)).toNat +
      65536 * (Memory.read m (a + 2)).toNat + 16777216 * (Memory.read m (a + 3)).toNat := by
  unfold memRead
  rw [range_four]
  simp only [byteWeight, List.map_cons, List.map_nil, List.sum_cons, List.sum_nil]
  exact weigh_four_le _ _ _ _

theorem memRead_four_be (m : Memory) (a : Nat) :
    memRead .be m a 4 = 16777216 * (Memory.read m a).toNat + 65536 * (Memory.read m (a + 1)).toNat +
      256 * (Memory.read m (a + 2)).toNat + (Memory.read m (a + 3)).toNat := by
  unfold memRead
  rw [range_four]
  simp only [byteWeight, List.map_cons, List.map_nil, List.sum_cons, List.sum_nil]
  exact weigh_four_be _ _ _ _

/-! ### The wire image -/

/-- The image of a segment is canonical. -/
theorem pack_wf (o : WireOrder) (g : Segment) : Memory.wf (pack o g) = true := by
  have w0 : Memory.wf ([] : Memory) = true := rfl
  have w1 := memWrite_wf o (addr := 0) (n := 2) g.sport.toNat w0 (by omega)
  have w2 := memWrite_wf o (addr := 2) (n := 2) g.dport.toNat w1 (by omega)
  have w3 := memWrite_wf o (addr := 4) (n := 4) g.seq.toNat w2 (by omega)
  have w4 := memWrite_wf o (addr := 8) (n := 4) g.ack.toNat w3 (by omega)
  have w5 := memWrite_wf o (addr := 12) (n := 2) g.ctrl.toNat w4 (by omega)
  have w6 := memWrite_wf o (addr := 14) (n := 2) g.win.toNat w5 (by omega)
  have w7 := memWrite_wf o (addr := 16) (n := 2) g.csum.toNat w6 (by omega)
  have w8 := memWrite_wf o (addr := 18) (n := 2) g.urg.toNat w7 (by omega)
  exact memWrite_wf o (addr := 20) (n := 4) g.opt.toNat w8 (by omega)

/-- What each byte of an image is: its field's byte (spec/20 R52, R54). -/
theorem read_pack (o : WireOrder) (g : Segment) (a : Nat) :
    Memory.read (pack o g) a =
      if a < 2 then BitVec.ofNat 8 (g.sport.toNat / 256 ^ byteWeight o 2 a)
      else if a < 4 then BitVec.ofNat 8 (g.dport.toNat / 256 ^ byteWeight o 2 (a - 2))
      else if a < 8 then BitVec.ofNat 8 (g.seq.toNat / 256 ^ byteWeight o 4 (a - 4))
      else if a < 12 then BitVec.ofNat 8 (g.ack.toNat / 256 ^ byteWeight o 4 (a - 8))
      else if a < 14 then BitVec.ofNat 8 (g.ctrl.toNat / 256 ^ byteWeight o 2 (a - 12))
      else if a < 16 then BitVec.ofNat 8 (g.win.toNat / 256 ^ byteWeight o 2 (a - 14))
      else if a < 18 then BitVec.ofNat 8 (g.csum.toNat / 256 ^ byteWeight o 2 (a - 16))
      else if a < 20 then BitVec.ofNat 8 (g.urg.toNat / 256 ^ byteWeight o 2 (a - 18))
      else if a < 24 then BitVec.ofNat 8 (g.opt.toNat / 256 ^ byteWeight o 4 (a - 20))
      else 0#8 := by
  have w0 : Memory.wf ([] : Memory) = true := rfl
  have w1 := memWrite_wf o (addr := 0) (n := 2) g.sport.toNat w0 (by omega)
  have w2 := memWrite_wf o (addr := 2) (n := 2) g.dport.toNat w1 (by omega)
  have w3 := memWrite_wf o (addr := 4) (n := 4) g.seq.toNat w2 (by omega)
  have w4 := memWrite_wf o (addr := 8) (n := 4) g.ack.toNat w3 (by omega)
  have w5 := memWrite_wf o (addr := 12) (n := 2) g.ctrl.toNat w4 (by omega)
  have w6 := memWrite_wf o (addr := 14) (n := 2) g.win.toNat w5 (by omega)
  have w7 := memWrite_wf o (addr := 16) (n := 2) g.csum.toNat w6 (by omega)
  have w8 := memWrite_wf o (addr := 18) (n := 2) g.urg.toNat w7 (by omega)
  unfold pack
  simp only
  rw [read_memWrite o _ w8 (by omega), read_memWrite o _ w7 (by omega), read_memWrite o _ w6 (by omega),
    read_memWrite o _ w5 (by omega), read_memWrite o _ w4 (by omega), read_memWrite o _ w3 (by omega),
    read_memWrite o _ w2 (by omega), read_memWrite o _ w1 (by omega), read_memWrite o _ w0 (by omega)]
  simp only [Memory.read]
  by_cases h24 : a < 24
  · by_cases h20 : a < 20
    · by_cases h18 : a < 18
      · by_cases h16 : a < 16
        · by_cases h14 : a < 14
          · by_cases h12 : a < 12
            · by_cases h8 : a < 8
              · by_cases h4 : a < 4
                · by_cases h2 : a < 2
                  · simp (disch := omega) only [if_neg, if_pos, Nat.sub_zero]
                  · simp (disch := omega) only [if_neg, if_pos]
                · simp (disch := omega) only [if_neg, if_pos]
              · simp (disch := omega) only [if_neg, if_pos]
            · simp (disch := omega) only [if_neg, if_pos]
          · simp (disch := omega) only [if_neg, if_pos]
        · simp (disch := omega) only [if_neg, if_pos]
      · simp (disch := omega) only [if_neg, if_pos]
    · simp (disch := omega) only [if_neg, if_pos]
  · simp (disch := omega) only [if_neg]

end Sys2Proof.Machine
end

