-- ==== Sys2Proof/Laws/PerInstr.lean ====
section
/-! SUPPORT. One lemma per constructor of `Instr`: what its encoding is. -/

namespace Sys2Proof.Laws.EncodeLegal

/-- The encoding of the instruction passes every check of spec/30 R95 and R87. -/
def Statement (i : Instr) : Prop := (encode i).wellFormed = true

theorem create (a b : Half) : Statement (.create a b) := rfl

theorem setFlag (f : FlagId) : Statement (.setFlag f) := by cases f <;> rfl

theorem clearFlag (f : FlagId) : Statement (.clearFlag f) := by cases f <;> rfl

theorem checkFlag (f : FlagId) : Statement (.checkFlag f) := by cases f <;> rfl

theorem getOff : Statement .getOff := rfl

theorem getRsv : Statement .getRsv := rfl

theorem pack : Statement .pack := rfl

theorem unpack : Statement .unpack := rfl

theorem report : Statement .report := rfl

theorem checksum : Statement .checksum := rfl

theorem stamp : Statement .stamp := rfl

theorem verify : Statement .verify := rfl

theorem openI (a b : Half) : Statement (.openI a b) := rfl

theorem openR (a b : Half) : Statement (.openR a b) := rfl

theorem closeI (a b : Half) : Statement (.closeI a b) := rfl

theorem closeR (a b : Half) : Statement (.closeR a b) := rfl

theorem segSyn : Statement .segSyn := rfl

theorem segSynAck : Statement .segSynAck := rfl

theorem segAck : Statement .segAck := rfl

theorem segFin : Statement .segFin := rfl

end Sys2Proof.Laws.EncodeLegal
end

