-- ==== Sys2Proof/Laws/Steps.lean ====
section
/-! SUPPORT. What a step of the running exchange can do, said once for all fourteen: `ownStep_cases`. -/

namespace Sys2Proof.Machine

/-- What no step touches before it ends: everything but `SEG`, `BUF`, the two numbers and the environment. -/
structure Carries (s y : State) : Prop where
  status : y.status = s.status
  stepIx : y.stepIx = s.stepIx
  op : y.op = s.op
  role : y.role = s.role
  localPort : y.localPort = s.localPort
  peerPort : y.peerPort = s.peerPort
  err : y.err = s.err
  res : y.res = s.res

theorem Carries.refl (s : State) : Carries s s := ⟨rfl, rfl, rfl, rfl, rfl, rfl, rfl, rfl⟩

theorem Carries.trans {s x y : State} (h : Carries s x) (k : Carries x y) : Carries s y :=
  ⟨k.status.trans h.status, k.stepIx.trans h.stepIx, k.op.trans h.op, k.role.trans h.role, k.localPort.trans h.localPort,
    k.peerPort.trans h.peerPort, k.err.trans h.err, k.res.trans h.res⟩

/-! ### The micro-sequences and the checks, by the way they end -/

/-- A send goes on with the rest of the step, or raises `ShortIo`, from the state after `ChanSend`. -/
theorem sendSeg_cases (p : Params) (x : State) (rest : State → State) :
    ∃ y, Carries x y ∧ y.seg = x.seg ∧ y.localSeq = x.localSeq ∧ y.peerSeq = x.peerSeq ∧ y.buf = pack p.wireOrder x.seg ∧
      (sendSeg p x rest = rest y ∨ ∃ i, sendSeg p x rest = raise .shortIo i y) := by
  refine ⟨afterSend (Memory.bytes (pack p.wireOrder x.seg)) (loadSend p x), ⟨?_, ?_, ?_, ?_, ?_, ?_, ?_, ?_⟩, ?_, ?_, ?_, ?_, ?_⟩
  case refine_13 =>
    rcases hc : sendAnswer (sendChoice x) with c | _
    · by_cases h : c = 24
      · exact .inl (sendSeg_whole p rest (h ▸ hc))
      · exact .inr ⟨_, sendSeg_short p rest hc h⟩
    · exact .inr ⟨_, sendSeg_error p rest hc⟩
  all_goals simp

/-- A receive is blocked, or goes on with the rest of the step from the latched segment, or raises `ShortIo`. -/
theorem recvSeg_cases (p : Params) (x : State) (rest : State → State) :
    recvBlocked x = true ∧ recvSeg p x rest = x ∨
    ∃ y, Carries x y ∧ y.localSeq = x.localSeq ∧ y.peerSeq = x.peerSeq ∧ Memory.wf y.buf = true ∧
      ((y.seg = unpack p.wireOrder y.buf ∧ recvSeg p x rest = rest y) ∨
        (y.seg = x.seg ∧ ∃ i, recvSeg p x rest = raise .shortIo i y)) := by
  by_cases hb : recvBlocked x = true
  · exact .inl ⟨hb, recvSeg_blocked p rest hb⟩
  right
  rw [Bool.not_eq_true] at hb
  have hfree : ∀ n, Memory.wf (Memory.ofBytes ((List.range 24).map (Config.freeByte n))) = true := fun n => ofBytes_wf (by simp)
  have short : ∃ y, y = bufUnspecified (afterRecv x) ∧ Carries x y ∧ y.localSeq = x.localSeq ∧ y.peerSeq = x.peerSeq ∧
      Memory.wf y.buf = true ∧ y.seg = x.seg :=
    ⟨_, rfl, ⟨by simp, by simp, by simp, by simp, by simp, by simp, by simp, by simp⟩, by simp, by simp, by simp [hfree], by simp⟩
  obtain ⟨y, rfl, h1, h2, h3, h4, h5⟩ := short
  cases ha : recvAnswer x with
  | error => exact ⟨_, h1, h2, h3, h4, .inr ⟨h5, _, recvSeg_error p rest hb ha⟩⟩
  | bytes r =>
    by_cases hr : r.length = 24
    · exact ⟨latchSegment p r (afterRecv x), ⟨by simp, by simp, by simp, by simp, by simp, by simp, by simp, by simp⟩, by simp,
        by simp, by simp [ofBytes_wf (Nat.le_of_eq hr)], .inl ⟨by simp, recvSeg_whole p rest hb ha hr⟩⟩
    · exact ⟨_, h1, h2, h3, h4, .inr ⟨h5, _, recvSeg_short p rest hb ha hr⟩⟩

theorem requireChecksum_cases (x : State) (rest : State → State) :
    requireChecksum x rest = rest x ∨ ∃ i, requireChecksum x rest = raise .checksumMismatch i x := by
  unfold requireChecksum
  split
  · exact .inl rfl
  · exact .inr ⟨_, rfl⟩

theorem requireSeq_cases (x : State) (rest : State → State) :
    requireSeq x rest = rest x ∨ ∃ i, requireSeq x rest = raise .sequenceMismatch i x := by
  unfold requireSeq
  split
  · exact .inl rfl
  · exact .inr ⟨_, rfl⟩

theorem requireAck_cases (e : Word) (x : State) (rest : State → State) :
    requireAck e x rest = rest x ∨ ∃ i, requireAck e x rest = raise .acknowledgmentMismatch i x := by
  unfold requireAck
  split
  · exact .inl rfl
  · exact .inr ⟨_, rfl⟩

theorem requireFlag_cases (f : FlagId) (x : State) (rest : State → State) :
    requireFlag f x rest = rest x ∨ ∃ i, requireFlag f x rest = raise .flagMismatch i x := by
  unfold requireFlag
  split
  · exact .inl rfl
  · exact .inr ⟨_, rfl⟩

theorem requireOnly_cases (p : Params) (m : BitVec 6) (x : State) (rest : State → State) :
    requireOnly p m x rest = rest x ∨ ∃ i, requireOnly p m x rest = raise .flagMismatch i x := by
  unfold requireOnly
  split
  · exact .inr ⟨_, rfl⟩
  · exact .inl rfl

/-! ### The fourteen steps -/

/-- The effect of a step of the running exchange, send or receive. -/
def ownStep (p : Params) : ExStep → State → State
  | .oiSendRequest => oiSendRequest p
  | .oiAwaitGrant => oiAwaitGrant p
  | .oiSendAck => oiSendAck p
  | .orAwaitRequest => orAwaitRequest p
  | .orSendGrant => orSendGrant p
  | .orAwaitAck => orAwaitAck p
  | .ciSendFin => ciSendFin p
  | .ciAwaitAck1 => ciAwaitAck1 p
  | .ciAwaitFin => ciAwaitFin p
  | .ciSendAck2 => ciSendAck2 p
  | .crAwaitFin => crAwaitFin p
  | .crSendAck => crSendAck p
  | .crSendFin => crSendFin p
  | .crAwaitAck => crAwaitAck p

/-- How a step that succeeds ends. -/
def endOf : ExStep → State → State
  | .oiSendRequest => gotoStep .s1
  | .oiAwaitGrant => gotoStep .s2
  | .oiSendAck => finish
  | .orAwaitRequest => gotoStep .s1
  | .orSendGrant => gotoStep .s2
  | .orAwaitAck => finish
  | .ciSendFin => gotoStep .s1
  | .ciAwaitAck1 => gotoStep .s2
  | .ciAwaitFin => gotoStep .s3
  | .ciSendAck2 => finish
  | .crAwaitFin => gotoStep .s1
  | .crSendAck => gotoStep .s2
  | .crSendFin => gotoStep .s3
  | .crAwaitAck => finish

/-- Where a step takes its work from the running exchange of `x`, it is the step the sequence names. -/
theorem step_of_own {s x : State} {e : ExStep} (hf : fetch s = fetchOwn x) (h : activeStep x = some e) :
    step s = .next (ownStep decided e x) := by
  cases e
  case oiAwaitGrant | orAwaitRequest | orAwaitAck | ciAwaitAck1 | ciAwaitFin | crAwaitFin | crAwaitAck =>
    simp only [step, hf, fetchOwn_receive h rfl, receiveStep, ownStep]
  case oiSendRequest =>
    simp only [step, hf, fetchOwn_send h rfl]
    exact exec_segSyn h
  case oiSendAck =>
    simp only [step, hf, fetchOwn_send h rfl]
    exact exec_segAck_open h
  case orSendGrant =>
    simp only [step, hf, fetchOwn_send h rfl]
    exact exec_segSynAck h
  case ciSendFin =>
    simp only [step, hf, fetchOwn_send h rfl]
    exact exec_segFin_initiator h
  case ciSendAck2 =>
    simp only [step, hf, fetchOwn_send h rfl]
    exact exec_segAck_close h
  case crSendAck =>
    simp only [step, hf, fetchOwn_send h rfl]
    exact exec_segAck_first h
  case crSendFin =>
    simp only [step, hf, fetchOwn_send h rfl]
    exact exec_segFin_template h

/-- With nothing pending outside, a step is the step the sequence names. -/
theorem step_own {s : State} {e : ExStep} (hf : Free s) (h : activeStep s = some e) : step s = .next (ownStep decided e s) :=
  step_of_own (fetch_free hf) h

/-- Where the block is let take a step of its own, a step is the step the sequence names. -/
theorem step_advance {s : State} {e : ExStep} {rest : List Input} (hi : s.env.inputs = .advance :: rest) (h : activeStep s = some e) :
    step s = .next (ownStep decided e { s with env := { s.env with inputs := rest } }) :=
  step_of_own (x := { s with env := { s.env with inputs := rest } }) (by simp only [fetch_input hi, fetchInput])
    (by simpa only [activeStep] using h)

/-- A step of the block itself is the step the sequence names. -/
theorem step_turn {s x : State} {e : ExStep} (ht : OwnTurn s x) (h : activeStep x = some e) : step s = .next (ownStep decided e x) := by
  rcases ht with ⟨hi, rfl⟩ | ⟨rest, hi, rfl⟩
  · exact step_own hi h
  · exact step_advance hi h

/-- While its channel call is blocked, a step leaves the instance as it is. -/
theorem ownStep_blocked (p : Params) {e : ExStep} {s : State} (h : stepBlocked e s = true) : ownStep p e s = s := by
  cases e <;> simp only [stepBlocked, builtControl, Option.isSome_some, Option.isSome_none, if_true, Bool.false_eq_true, if_false] at h
  case oiAwaitGrant | orAwaitRequest | orAwaitAck | ciAwaitAck1 | ciAwaitFin | crAwaitFin | crAwaitAck =>
    simp only [ownStep, oiAwaitGrant, orAwaitRequest, orAwaitAck, ciAwaitAck1, ciAwaitFin, crAwaitFin, crAwaitAck, recvSeg_blocked p _ h]
  all_goals
    simp only [ownStep, oiSendRequest, oiSendAck, orSendGrant, ciSendFin, ciSendAck2, crSendAck, crSendFin, sendStep_blocked p _ _ h]

/-- What a step did, once its micro-sequence has answered: it ends as a success does, or it raises one of its kinds. -/
def EndsLike (e : ExStep) (s t : State) : Prop :=
  ∃ y, Carries s y ∧ Memory.wf y.buf = true ∧ (y.localSeq = s.localSeq ∨ y.localSeq.toNat < 0xFFFFFFF0) ∧
    ((t = endOf e y ∧ (e = .crSendAck → y.seg = ackTemplate y)) ∨ ∃ k, k ∈ mayRaise e ∧ ∃ i, t = raise k i y)

theorem sendStep_ends {e : ExStep} {s : State} {build rest : State → State} (hr : rest = endOf e) (hc : Carries s (build s))
    (hl : (build s).localSeq = s.localSeq ∨ (build s).localSeq.toNat < 0xFFFFFFF0) (hk : ErrKind.shortIo ∈ mayRaise e)
    (ht : e = .crSendAck → (build s).seg = ackTemplate (build s)) :
    sendBlocked s = true ∧ sendStep decided build rest s = s ∨ EndsLike e s (sendStep decided build rest s) := by
  cases hb : sendBlocked s
  case true => exact .inl ⟨rfl, sendStep_blocked _ _ _ hb⟩
  right
  rw [sendStep_free _ _ _ hb]
  generalize build s = x at *
  obtain ⟨y, h1, h2, h3, h4, h5, h⟩ := sendSeg_cases decided x rest
  refine ⟨y, hc.trans h1, by rw [h5]; exact pack_wf _ _, by rwa [h3], ?_⟩
  rcases h with h | ⟨i, h⟩
  · refine .inl ⟨by rw [h, hr], fun he => ?_⟩
    have := ht he
    simpa only [ackTemplate, h2, h1.localPort, h1.peerPort, h3, h4] using this
  · exact .inr ⟨_, hk, i, h⟩

/-- The drawn number is below `ISN_MOD` (spec/70 R230). -/
theorem drawn_below (x : State) : (isn decided (drawValue x)).toNat < 0xFFFFFFF0 := by
  rw [isn_decided_toNat]
  exact Nat.mod_lt _ (by decide)

/-- The kinds a chain of checks that starts at `y` may end in. -/
def ChecksEnd (e : ExStep) (y t : State) : Prop :=
  t = endOf e y ∨ t = endOf e (latchPeer y) ∨ ∃ k, k ∈ mayRaise e ∧ ∃ i, t = raise k i y

theorem ChecksEnd.failed {e : ExStep} {y t : State} {k : ErrKind} (hk : k ∈ mayRaise e) (h : ∃ i, t = raise k i y) :
    ChecksEnd e y t := .inr (.inr ⟨k, hk, h⟩)

theorem recvStep_ends {e : ExStep} {s : State} {rest : State → State} (hk : ErrKind.shortIo ∈ mayRaise e) (hn : e ≠ .crSendAck)
    (hr : ∀ y, ChecksEnd e y (rest y)) : recvBlocked s = true ∧ recvSeg decided s rest = s ∨ EndsLike e s (recvSeg decided s rest) := by
  rcases recvSeg_cases decided s rest with h | ⟨y, h1, h2, h3, h4, ⟨-, h⟩ | ⟨-, i, h⟩⟩
  · exact .inl h
  · right
    rw [h]
    rcases hr y with h | h | ⟨k, hk, i, h⟩
    · exact ⟨y, h1, h4, .inl h2, .inl ⟨h, fun he => absurd he hn⟩⟩
    · refine ⟨latchPeer y, h1.trans ⟨?_, ?_, ?_, ?_, ?_, ?_, ?_, ?_⟩, ?_, .inl ?_, .inl ⟨h, fun he => absurd he hn⟩⟩
      all_goals simp [h2, h4]
    · exact ⟨y, h1, h4, .inl h2, .inr ⟨k, hk, i, h⟩⟩
  · exact .inr ⟨y, h1, h4, .inl h2, .inr ⟨_, hk, i, h⟩⟩

theorem ChecksEnd.checksum {e : ExStep} {y : State} {rest : State → State} (hk : ErrKind.checksumMismatch ∈ mayRaise e)
    (h : ChecksEnd e y (rest y)) : ChecksEnd e y (requireChecksum y rest) := by
  rcases requireChecksum_cases y rest with h' | h'
  · rwa [h']
  · exact .failed hk h'

theorem ChecksEnd.seq {e : ExStep} {y : State} {rest : State → State} (hk : ErrKind.sequenceMismatch ∈ mayRaise e)
    (h : ChecksEnd e y (rest y)) : ChecksEnd e y (requireSeq y rest) := by
  rcases requireSeq_cases y rest with h' | h'
  · rwa [h']
  · exact .failed hk h'

theorem ChecksEnd.ack {e : ExStep} {y : State} {rest : State → State} (w : Word) (hk : ErrKind.acknowledgmentMismatch ∈ mayRaise e)
    (h : ChecksEnd e y (rest y)) : ChecksEnd e y (requireAck w y rest) := by
  rcases requireAck_cases w y rest with h' | h'
  · rwa [h']
  · exact .failed hk h'

theorem ChecksEnd.flag {e : ExStep} {y : State} {rest : State → State} (f : FlagId) (hk : ErrKind.flagMismatch ∈ mayRaise e)
    (h : ChecksEnd e y (rest y)) : ChecksEnd e y (requireFlag f y rest) := by
  rcases requireFlag_cases f y rest with h' | h'
  · rwa [h']
  · exact .failed hk h'

theorem ChecksEnd.only {e : ExStep} {y : State} {rest : State → State} (m : BitVec 6) (hk : ErrKind.flagMismatch ∈ mayRaise e)
    (h : ChecksEnd e y (rest y)) : ChecksEnd e y (requireOnly decided m y rest) := by
  rcases requireOnly_cases decided m y rest with h' | h'
  · rwa [h']
  · exact .failed hk h'

theorem ChecksEnd.done {e : ExStep} (y : State) : ChecksEnd e y (endOf e y) := .inl rfl

theorem ChecksEnd.latched {e : ExStep} (y : State) : ChecksEnd e y (endOf e (latchPeer y)) := .inr (.inl rfl)

theorem ctrlSet_ack_fresh : ctrlSet .ack 0x6000#16 = 0x6010#16 := by decide

/-- Every step of the running exchange leaves the state alone while its channel call is blocked, or ends as a success of it does, or raises
one of the kinds spec/60 R186 lists for it. -/
theorem ownStep_cases (e : ExStep) (s : State) : stepBlocked e s = true ∧ ownStep decided e s = s ∨ EndsLike e s (ownStep decided e s) := by
  cases e <;> simp only [ownStep]
  case oiAwaitGrant =>
    exact recvStep_ends (by decide) (by decide) fun y =>
      .ack _ (by decide) <| .flag _ (by decide) <| .flag _ (by decide) <| .only _ (by decide) <| .checksum (by decide) <| .latched y
  case orAwaitRequest =>
    exact recvStep_ends (by decide) (by decide) fun y =>
      .checksum (by decide) <| .flag _ (by decide) <| .only _ (by decide) <| .latched y
  case orAwaitAck | crAwaitAck =>
    exact recvStep_ends (by decide) (by decide) fun y =>
      .checksum (by decide) <| .seq (by decide) <| .ack _ (by decide) <| .flag _ (by decide) <| .only _ (by decide) <| .done y
  case ciAwaitAck1 | crAwaitFin =>
    exact recvStep_ends (by decide) (by decide) fun y =>
      .checksum (by decide) <| .ack _ (by decide) <| .flag _ (by decide) <| .only _ (by decide) <| .latched y
  case ciAwaitFin =>
    exact recvStep_ends (by decide) (by decide) fun y =>
      .checksum (by decide) <| .ack _ (by decide) <| .flag _ (by decide) <| .only _ (by decide) <| .done y
  case oiSendRequest | orSendGrant | ciSendFin =>
    exact sendStep_ends rfl (by constructor <;> simp) (by simp [drawn_below]) (by decide) (by simp)
  case oiSendAck | ciSendAck2 | crSendFin =>
    exact sendStep_ends rfl (by constructor <;> simp) (by simp) (by decide) (by simp)
  case crSendAck =>
    refine sendStep_ends rfl (by constructor <;> simp) (by simp [drawn_below]) (by decide) fun _ => ?_
    simp [ackTemplate, fresh, setFlag, ctrlSet_ack_fresh]

end Sys2Proof.Machine
end

