-- ==== Sys2Proof/Tests/Slice0.lean ====
section
/-! SUPPORT. The model's own tests: written-out words, the vectors of spec/95, and for each statement of Obligations.lean that
has hypotheses a concrete state and operands that meet them together (`witness_<statement>`). -/

namespace Sys2Proof.Tests

open Sys2Proof Sys2Proof.Machine

/-! ### Helpers -/

/-- The outcome is a next state with the property. -/
def after (o : Outcome) (p : State → Bool) : Bool :=
  match o with
  | .next t => p t
  | .fault _ => false
  | .refused _ => false

/-- The reset state with `SEG` set. -/
def withSeg (g : Segment) : State := { State.reset with seg := g }

/-- The reset state with `SEG.ctrl` set. -/
def withCtrl (c : Half) : State := withSeg { Segment.zero with ctrl := c }

/-- The reset state with one answer of the random source scripted. -/
def drawing (r : Word) : State := { State.reset with env := { Env.initial with draws := [r] } }

/-- The reset state with one event pending. -/
def pending (i : Input) : State := { State.reset with env := { Env.initial with inputs := [i] } }

/-- The Initiator at a step: ports 40000 and 8080. -/
def initiator (op : ExOp) (k : StepIx) (l p : Word) : State :=
  { State.reset with
    op := op, role := .initiator, stepIx := k, localSeq := l, peerSeq := p, localPort := 40000#16, peerPort := 8080#16
    status := ⟨.busy, false⟩, env := { Env.initial with draws := [1000#32] } }

/-- The Responder at a step: ports 8080 and 40000. -/
def responder (op : ExOp) (k : StepIx) (l p : Word) : State :=
  { State.reset with
    op := op, role := .responder, stepIx := k, localSeq := l, peerSeq := p, localPort := 8080#16, peerPort := 40000#16
    status := ⟨.busy, false⟩, env := { Env.initial with draws := [5000#32] } }

/-- Bytes have arrived. -/
def got (s : State) (bs : List Byte) : State := { s with env := { s.env with rxq := bs } }

/-- One event `advance` is pending before whatever else is. -/
def advancing (s : State) : State := { s with env := { s.env with inputs := .advance :: s.env.inputs } }

/-- The direction to the peer takes no bytes. -/
def stalled (s : State) : State := { s with env := { s.env with txStalled := true } }

/-- The two ways in which the block takes a step of its own. -/
theorem turns {s : State} (h : Free s) : OwnTurn s s ∧ OwnTurn (advancing s) s := ⟨.inl ⟨h, rfl⟩, .inr ⟨_, rfl, rfl⟩⟩

theorem turn_here {s : State} (h : Free s) : OwnTurn s s := (turns h).1

theorem turn_advance {s : State} (h : Free s) : OwnTurn (advancing s) s := (turns h).2

/-- The environment will make this choice at the next send. -/
def sending (s : State) (c : SendChoice) : State := { s with env := { s.env with sendChoices := [c] } }

/-- The direction from the peer is `down`, and the environment will make this choice at the next receive. -/
def choosing (s : State) (c : RecvChoice) : State := { s with env := { s.env with rxDown := true, recvChoices := [c] } }

/-- O1, O2, O3, K1 to K4 of spec/95 section 2. -/
def o1 : Segment := ⟨40000#16, 8080#16, 1000#32, 0#32, 0x6002#16, 0#16, 0xE044#16, 0#16, 0#32⟩

def o2 : Segment := ⟨8080#16, 40000#16, 5000#32, 1001#32, 0x6012#16, 0#16, 0xCCAB#16, 0#16, 0#32⟩

def o3 : Segment := ⟨40000#16, 8080#16, 1001#32, 5001#32, 0x6010#16, 0#16, 0xCCAC#16, 0#16, 0#32⟩

def k1 : Segment := ⟨40000#16, 8080#16, 2000#32, 0#32, 0x6001#16, 0#16, 0xDC5D#16, 0#16, 0#32⟩

def k2 : Segment := ⟨8080#16, 40000#16, 9000#32, 2001#32, 0x6010#16, 0#16, 0xB925#16, 0#16, 0#32⟩

def k3 : Segment := ⟨8080#16, 40000#16, 9000#32, 2001#32, 0x6001#16, 0#16, 0xB934#16, 0#16, 0#32⟩

def k4 : Segment := ⟨40000#16, 8080#16, 2001#32, 9001#32, 0x6010#16, 0#16, 0xB924#16, 0#16, 0#32⟩

/-- The image of O1, byte for byte from spec/95 section 2. -/
def o1Bytes : List Byte :=
  [0x40, 0x9C, 0x90, 0x1F, 0xE8, 0x03, 0, 0, 0, 0, 0, 0, 0x02, 0x60, 0, 0, 0x44, 0xE0, 0, 0, 0, 0, 0, 0]

/-- The image of O2. -/
def o2Bytes : List Byte :=
  [0x90, 0x1F, 0x40, 0x9C, 0x88, 0x13, 0, 0, 0xE9, 0x03, 0, 0, 0x12, 0x60, 0, 0, 0xAB, 0xCC, 0, 0, 0, 0, 0, 0]

/-- The wire image of a segment whose numbers fit 16 bits, of the form the vectors have: `ack`, `ctrl` and `csum` in two bytes
each, `win`, `urg`, `opt` 0. -/
def image (g : Segment) : List Byte :=
  [g.sport.setWidth 8, (g.sport >>> 8).setWidth 8, g.dport.setWidth 8, (g.dport >>> 8).setWidth 8, g.seq.setWidth 8,
    (g.seq >>> 8).setWidth 8, (g.seq >>> 16).setWidth 8, (g.seq >>> 24).setWidth 8, g.ack.setWidth 8, (g.ack >>> 8).setWidth 8,
    0, 0, g.ctrl.setWidth 8, (g.ctrl >>> 8).setWidth 8, 0, 0, g.csum.setWidth 8, (g.csum >>> 8).setWidth 8, 0, 0, 0, 0, 0, 0]

theorem test_image_o1 : image o1 = o1Bytes := by decide

theorem test_image_o2 : image o2 = o2Bytes := by decide

/-- `ERR` of a failed check. -/
def checkErr (s : State) (k : ErrKind) (f : FlagId) (expected observed : Word) : ErrReg :=
  ⟨k, s.op, s.role, s.stepIx, f, .send, false, false, false, expected, observed⟩

/-! ### Words written out bit by bit: the operation map (spec/30 R93) and the built kinds (spec/30 R87) -/

theorem test_decode_create : decode (.cmd 0b00000000#8 1#16 2#16) = .ok (.create 1#16 2#16) := by decide

theorem test_decode_setFlag : decode (.cmd 0b00010001#8 0#16 0#16) = .ok (.setFlag .syn) := by decide

theorem test_decode_clearFlag : decode (.cmd 0b00100100#8 0#16 0#16) = .ok (.clearFlag .ack) := by decide

theorem test_decode_checkFlag : decode (.cmd 0b00110101#8 0#16 0#16) = .ok (.checkFlag .urg) := by decide

theorem test_decode_getOff : decode (.cmd 0b01000000#8 0#16 0#16) = .ok (.getOff) := by decide

theorem test_decode_getRsv : decode (.cmd 0b01010000#8 0#16 0#16) = .ok (.getRsv) := by decide

theorem test_decode_pack : decode (.cmd 0b01100000#8 0#16 0#16) = .ok (.pack) := by decide

theorem test_decode_unpack : decode (.cmd 0b01110000#8 0#16 0#16) = .ok (.unpack) := by decide

theorem test_decode_report : decode (.cmd 0b10000000#8 0#16 0#16) = .ok (.report) := by decide

theorem test_decode_checksum : decode (.cmd 0b10010000#8 0#16 0#16) = .ok (.checksum) := by decide

theorem test_decode_stamp : decode (.cmd 0b10100000#8 0#16 0#16) = .ok (.stamp) := by decide

theorem test_decode_verify : decode (.cmd 0b10110000#8 0#16 0#16) = .ok (.verify) := by decide

theorem test_decode_openI : decode (.cmd 0b11000000#8 1#16 2#16) = .ok (.openI 1#16 2#16) := by decide

theorem test_decode_openR : decode (.cmd 0b11000001#8 1#16 2#16) = .ok (.openR 1#16 2#16) := by decide

theorem test_decode_closeI : decode (.cmd 0b11010000#8 1#16 2#16) = .ok (.closeI 1#16 2#16) := by decide

theorem test_decode_closeR : decode (.cmd 0b11010001#8 1#16 2#16) = .ok (.closeR 1#16 2#16) := by decide

theorem test_decode_segSyn : decode (.ctrl 0b0110000000000010#16) = .ok .segSyn := by decide

theorem test_decode_segSynAck : decode (.ctrl 0b0110000000010010#16) = .ok .segSynAck := by decide

theorem test_decode_segAck : decode (.ctrl 0b0110000000010000#16) = .ok .segAck := by decide

theorem test_decode_segFin : decode (.ctrl 0b0110000000000001#16) = .ok .segFin := by decide

/-- The six flag identifiers (spec/30 R84). -/
theorem test_decode_flags :
    [0x10#8, 0x11#8, 0x12#8, 0x13#8, 0x14#8, 0x15#8].map (fun w => decode (.cmd w 0#16 0#16)) =
      [.ok (.setFlag .fin), .ok (.setFlag .syn), .ok (.setFlag .rst), .ok (.setFlag .psh), .ok (.setFlag .ack),
        .ok (.setFlag .urg)] := by decide

/-! ### The checks of `WellFormed`, each with a word it refuses (spec/30 R95; spec/95 V90 to V93) -/

theorem test_wf_opcode :
    opcodeAssigned 0xE0#8 = false ∧ opcodeAssigned 0xF7#8 = false ∧ (Encoded.cmd 0xE0#8 0#16 0#16).wellFormed = false ∧
      decode (.cmd 0xF7#8 0#16 0#16) = .rejected .reservedOpcode := by decide

theorem test_wf_flag :
    flagOperandLegal 0x16#8 = false ∧ flagOperandLegal 0x2F#8 = false ∧ (Encoded.cmd 0x37#8 0#16 0#16).wellFormed = false ∧
      decode (.cmd 0x2F#8 0#16 0#16) = .rejected .notAFlagId := by decide

theorem test_wf_role :
    roleOperandLegal 0xC2#8 = false ∧ (Encoded.cmd 0xDF#8 0#16 0#16).wellFormed = false ∧
      decode (.cmd 0xDF#8 0#16 0#16) = .rejected .notARole := by decide

theorem test_wf_zero :
    zeroOperandLegal 0x41#8 = false ∧ (Encoded.cmd 0x01#8 0#16 0#16).wellFormed = false ∧
      decode (.cmd 0xA5#8 0#16 0#16) = .rejected .operandNotZero := by decide

theorem test_wf_kind :
    builtControlWord 0x6011#16 = false ∧ (Encoded.ctrl 0x6000#16).wellFormed = false ∧
      decode (.ctrl 0x6011#16) = .rejected .notABuiltKind := by decide

theorem test_wf_legal :
    (Encoded.cmd 0x15#8 0#16 0#16).wellFormed = true ∧ (Encoded.cmd 0xC1#8 1#16 2#16).wellFormed = true ∧
      (Encoded.ctrl 0x6012#16).wellFormed = true := by decide

/-! ### The host's two questions: the table's words are decoded, and the very next step runs them -/

theorem test_tableWord :
    decodeTableWord 8 0x00 = some (.create 0#16 0#16) ∧ decodeTableWord 8 0x24 = some (.clearFlag .ack) ∧
      decodeTableWord 8 0x16 = none ∧ decodeTableWord 16 0x6012 = some .segSynAck ∧ decodeTableWord 16 0x6000 = none := by decide

theorem test_withFetchWord_command :
    after (step (State.reset.withFetchWord 8 0x90)) (fun t => t.res == 0xFFFF#32) = true := by decide

theorem test_withFetchWord_kinds :
    ([0x6002, 0x6012, 0x6010, 0x6001].map fun w => after (step (State.reset.withFetchWord 16 w)) fun t => t.seg.ctrl == BitVec.ofNat 16 w) =
      [true, true, true, true] := by decide

/-! ### The codec (spec/95 V1 to V24) -/

/-- spec/95 V1. -/
theorem test_create : after (exec (.create 40000#16 8080#16) (drawing 1000#32)) (fun t =>
    t.seg == ⟨40000#16, 8080#16, 1000#32, 0#32, 0x6000#16, 0#16, 0#16, 0#16, 0#32⟩ && t.env.draws == []) = true := by decide

/-- spec/95 V2, V3, V5: the draw is reduced modulo `0xFFFFFFF0`. -/
theorem test_create_reduces :
    ([0xFFFFFFEF#32, 0xFFFFFFF0#32, 0xFFFFFFFF#32].zip [0xFFFFFFEF#32, 0#32, 15#32]).all (fun r =>
      after (exec (.create 1#16 2#16) (drawing r.1)) fun t => t.seg.seq == r.2) = true := by decide

/-- spec/95 V10: each flag sets its own bit. -/
theorem test_setFlag :
    ([(FlagId.fin, 0x6001#16), (.syn, 0x6002#16), (.rst, 0x6004#16), (.psh, 0x6008#16), (.ack, 0x6010#16),
      (.urg, 0x6020#16)].all fun p => after (exec (.setFlag p.1) (withCtrl 0x6000#16)) fun t => t.seg.ctrl == p.2) = true := by decide

/-- spec/95 V16. -/
theorem test_setFlag_full : after (exec (.setFlag .urg) (withCtrl 0xFFC0#16)) (fun t => t.seg.ctrl == 0xFFE0#16) = true := by decide

/-- spec/95 V11: not the reference defect, which would give 0. -/
theorem test_clearFlag : after (exec (.clearFlag .ack) (withCtrl 0x603F#16)) (fun t => t.seg.ctrl == 0x602F#16) = true := by decide

/-- spec/95 V14: clearing a clear flag. -/
theorem test_clearFlag_clear : after (exec (.clearFlag .fin) (withCtrl 0x6002#16)) (fun t => t.seg.ctrl == 0x6002#16) = true := by
  decide

/-- spec/95 V15. -/
theorem test_checkFlag :
    ([(FlagId.syn, 1#32), (.ack, 1#32), (.fin, 0#32), (.rst, 0#32), (.psh, 0#32), (.urg, 0#32)].all fun p =>
      after (exec (.checkFlag p.1) (withCtrl 0x6012#16)) fun t => t.res == p.2) = true := by decide

/-- spec/95 V17. -/
theorem test_getOff : after (exec .getOff (withCtrl 0xABCD#16)) (fun t => t.res == 10#32) = true := by decide

/-- spec/95 V17. -/
theorem test_getRsv : after (exec .getRsv (withCtrl 0xABCD#16)) (fun t => t.res == 47#32) = true := by decide

/-- spec/95 V19. -/
theorem test_pack : after (exec .pack (withSeg o1)) (fun t => Memory.bytes t.buf == o1Bytes && t.seg == o1) = true := by decide

/-- spec/95 V21: both byte orders. -/
theorem test_pack_orders :
    Memory.bytes (pack .le ⟨0x1234#16, 0x5678#16, 0x89ABCDEF#32, 0x01234567#32, 0x6012#16, 0#16, 0x991B#16, 0#16, 0#32⟩) =
      [0x34, 0x12, 0x78, 0x56, 0xEF, 0xCD, 0xAB, 0x89, 0x67, 0x45, 0x23, 0x01, 0x12, 0x60, 0, 0, 0x1B, 0x99, 0, 0, 0, 0, 0, 0] ∧
    Memory.bytes (pack .be ⟨0x1234#16, 0x5678#16, 0x89ABCDEF#32, 0x01234567#32, 0x6012#16, 0#16, 0x991B#16, 0#16, 0#32⟩) =
      [0x12, 0x34, 0x56, 0x78, 0x89, 0xAB, 0xCD, 0xEF, 0x01, 0x23, 0x45, 0x67, 0x60, 0x12, 0, 0, 0x99, 0x1B, 0, 0, 0, 0, 0, 0] := by
  decide

/-- spec/95 V20. -/
theorem test_unpack : after (exec .unpack { State.reset with buf := Memory.ofBytes o2Bytes }) (fun t => t.seg == o2) = true := by
  decide

/-- spec/95 V22: any 24 bytes unpack. -/
theorem test_unpack_any :
    after (exec .unpack { State.reset with buf := Memory.ofBytes ((List.range 24).map (BitVec.ofNat 8)) }) (fun t =>
      t.seg == ⟨0x0100#16, 0x0302#16, 0x07060504#32, 0x0B0A0908#32, 0x0D0C#16, 0x0F0E#16, 0x1110#16, 0x1312#16, 0x17161514#32⟩) =
      true := by decide

/-- spec/95 V23. -/
theorem test_report :
    after (exec .report (withSeg o2)) (fun t => t.env.trace == [⟨.rpt, .openEx, .initiator, .s0,
      ⟨8080#16, 40000#16, 5000#32, 1001#32, 6#4, 0#6, 0b010010#6, ["SYN", "ACK"], 0xCCAB#16, 0#16, 0#16, 0#32⟩⟩]) = true := by decide

/-! ### The checksum (spec/95 V30 to V44) -/

/-- spec/95 V30. -/
theorem test_checksum_zero : after (exec .checksum State.reset) (fun t => t.res == 0xFFFF#32) = true := by decide

/-- spec/95 V39: the second fold is needed. -/
theorem test_checksum_folds :
    after (exec .checksum (withSeg
      ⟨0xFFFF#16, 0xFFFF#16, 0xFFFFFFFF#32, 0xFFFFFFFF#32, 0xFFFF#16, 0xFFFF#16, 0#16, 0xFFFF#16, 0x0002FFFF#32⟩))
      (fun t => t.res == 0xFFFD#32) = true := by decide

/-- spec/95 V33: the old value does not count. -/
theorem test_stamp : after (exec .stamp (withSeg { o1 with csum := 0x1234#16 })) (fun t => t.seg == o1) = true := by decide

/-- spec/95 V34. -/
theorem test_verify : after (exec .verify (withSeg o1)) (fun t => t.res == 1#32 && t.seg == o1) = true := by decide

/-- spec/95 V35. -/
theorem test_verify_changed : after (exec .verify (withSeg { o1 with seq := 1001#32 })) (fun t => t.res == 0#32) = true := by decide

/-- spec/95 V44: O1 read in the other byte order. -/
theorem test_wrong_order :
    unpack .be (Memory.ofBytes o1Bytes) = ⟨0x409C#16, 0x901F#16, 0xE8030000#32, 0#32, 0x0260#16, 0#16, 0x44E0#16, 0#16, 0#32⟩ ∧
      verify (unpack .be (Memory.ofBytes o1Bytes)) = true ∧ checkFlag .syn (unpack .be (Memory.ofBytes o1Bytes)) = false := by decide

/-! ### The exchanges, one step at a time (spec/95 P2, P3, P9, V84 to V87) -/

theorem test_openI : after (exec (.openI 40000#16 8080#16) State.reset) (fun t =>
    t == { initiator .openEx .s0 0#32 0#32 with env := Env.initial }) = true := by decide

theorem test_openR : after (exec (.openR 8080#16 40000#16) State.reset) (fun t =>
    t == { responder .openEx .s0 0#32 0#32 with env := Env.initial }) = true := by decide

theorem test_closeI : after (exec (.closeI 40000#16 8080#16) State.reset) (fun t =>
    t == { initiator .closeEx .s0 0#32 0#32 with env := Env.initial }) = true := by decide

theorem test_closeR : after (exec (.closeR 8080#16 40000#16) State.reset) (fun t =>
    t == { responder .closeEx .s0 0#32 0#32 with env := Env.initial }) = true := by decide

/-- spec/95 P2 row 1: O1 goes out. -/
theorem test_segSyn : after (exec .segSyn (initiator .openEx .s0 0#32 0#32)) (fun t =>
    t.seg == o1 && t.env.txq == o1Bytes && t.localSeq == 1000#32 && t.stepIx == .s1) = true := by decide

/-- spec/95 P9: the send fails after the draw and the latch. -/
theorem test_segSyn_error : after (exec .segSyn (sending (initiator .openEx .s0 0#32 0#32) (.error 0))) (fun t =>
    t.err == ⟨.shortIo, .openEx, .initiator, .s0, .fin, .send, true, false, false, 24#32, 0#32⟩ && t.status.run == .failed &&
      t.localSeq == 1000#32 && t.seg == o1 && t.env.trace.length == 1 && t.stepIx == .s0) = true := by decide

/-- spec/95 P2 row 3: O2 goes out. -/
theorem test_segSynAck : after (exec .segSynAck (responder .openEx .s1 0#32 1000#32)) (fun t =>
    t.seg == o2 && t.env.txq == o2Bytes && t.stepIx == .s2) = true := by decide

/-- spec/95 V85: a short send. -/
theorem test_segSynAck_short : after (exec .segSynAck (sending (responder .openEx .s1 0#32 1000#32) (.count 12 12))) (fun t =>
    t.err == ⟨.shortIo, .openEx, .responder, .s1, .fin, .send, false, false, false, 24#32, 12#32⟩ && t.env.txq.length == 12) = true := by
  decide

/-- spec/95 P2 row 5: O3 goes out and the Initiator is done. -/
theorem test_segAck_open : after (exec .segAck (initiator .openEx .s2 1000#32 5000#32)) (fun t =>
    t.seg == o3 && t.status.run == .done && t.env.draws.length == 1) = true := by decide

/-- spec/95 P3 row 7 (K4); and row 3 with the draw 9000 (K2). -/
theorem test_segAck_close :
    after (exec .segAck (initiator .closeEx .s3 2000#32 9000#32)) (fun t => t.seg == k4 && t.status.run == .done) = true ∧
    after (exec .segAck { responder .closeEx .s1 0#32 2000#32 with env := { Env.initial with draws := [9000#32] } })
      (fun t => t.seg == k2 && t.localSeq == 9000#32 && t.stepIx == .s2) = true := by decide

/-- spec/95 P3 row 1 with the draw 2000 (K1). -/
theorem test_segFin : after (exec .segFin { initiator .closeEx .s0 0#32 0#32 with env := { Env.initial with draws := [2000#32] } })
    (fun t => t.seg == k1 && t.stepIx == .s1) = true := by decide

/-- spec/95 P3 row 4: K2 is the template of K3. -/
theorem test_segFin_template : after (exec .segFin { responder .closeEx .s2 9000#32 2000#32 with seg := k2 })
    (fun t => t.seg == k3 && t.env.txq == image k3 && t.stepIx == .s3 && t.env.draws.length == 1) = true := by decide

/-- spec/30 R97 (c): nowhere else is a segment kind carried out. -/
theorem test_segSyn_elsewhere : exec .segSyn State.reset = .refused .notAtBuildingStep := rfl

/-- spec/95 V94: a command while `BUSY`. -/
theorem test_busy_refused : exec .unpack (initiator .openEx .s1 1000#32 0#32) =
    .next { initiator .openEx .s1 1000#32 0#32 with status := ⟨.busy, true⟩ } := rfl

/-- spec/95 V95. -/
theorem test_accepted_clears :
    after (exec (.setFlag .syn) { State.reset with status := ⟨.done, true⟩ }) (fun t => t.status == ⟨.done, false⟩ && t.seg.ctrl == 2#16) =
      true := by decide

/-- The reached but unnamed step stops by name (spec/10 R26; log entry 12). -/
theorem test_noStepRule : step (initiator .openEx .s3 0#32 0#32) = .fault .noStepRule := rfl

/-- spec/60 R195, spec/95 V56: the strict variant. -/
theorem test_strict :
    (oiAwaitGrant { decided with strictFlags := true } (got (initiator .openEx .s1 1000#32 0#32)
      (image { o2 with ctrl := 0x6013#16, csum := 0xCCAA#16 }))).err =
      ⟨.flagMismatch, .openEx, .initiator, .s1, .fin, .send, false, false, true, 0x12#32, 0x13#32⟩ := by decide

/-- spec/40 R120: the clear-flag defect, as a parameter. -/
theorem test_clearBug : ctrlClear { decided with clearBug := true } .ack 0x603F#16 = 0#16 := by decide

/-! ### The receive steps (spec/95 V50 to V83): every clause of the receive statements, met by a vector -/

/-- spec/95 V51. -/
theorem witness_OpenInitiatorAwaitsGrant_ack :
    (OwnTurn (got (initiator .openEx .s1 1000#32 0#32) (image ⟨8080#16, 40000#16, 5000#32, 1002#32, 0x6012#16, 0#16, 0xCCAB#16, 0#16, 0#32⟩)) (got (initiator .openEx .s1 1000#32 0#32) (image ⟨8080#16, 40000#16, 5000#32, 1002#32, 0x6012#16, 0#16, 0xCCAB#16, 0#16, 0#32⟩)) ∧ OwnTurn (advancing (got (initiator .openEx .s1 1000#32 0#32) (image ⟨8080#16, 40000#16, 5000#32, 1002#32, 0x6012#16, 0#16, 0xCCAB#16, 0#16, 0#32⟩))) (got (initiator .openEx .s1 1000#32 0#32) (image ⟨8080#16, 40000#16, 5000#32, 1002#32, 0x6012#16, 0#16, 0xCCAB#16, 0#16, 0#32⟩))) ∧
    AtReceive (got (initiator .openEx .s1 1000#32 0#32) (image ⟨8080#16, 40000#16, 5000#32, 1002#32, 0x6012#16, 0#16, 0xCCAB#16, 0#16, 0#32⟩)) .oiAwaitGrant ∧
    recvAnswer (got (initiator .openEx .s1 1000#32 0#32) (image ⟨8080#16, 40000#16, 5000#32, 1002#32, 0x6012#16, 0#16, 0xCCAB#16, 0#16, 0#32⟩)) = .bytes (image ⟨8080#16, 40000#16, 5000#32, 1002#32, 0x6012#16, 0#16, 0xCCAB#16, 0#16, 0#32⟩) ∧
    after (step (advancing (got (initiator .openEx .s1 1000#32 0#32) (image ⟨8080#16, 40000#16, 5000#32, 1002#32, 0x6012#16, 0#16, 0xCCAB#16, 0#16, 0#32⟩)))) (fun t => t.seg == ⟨8080#16, 40000#16, 5000#32, 1002#32, 0x6012#16, 0#16, 0xCCAB#16, 0#16, 0#32⟩ && t.err == checkErr (initiator .openEx .s1 1000#32 0#32) .acknowledgmentMismatch .fin 0x3E9#32 0x3EA#32) = true :=
  ⟨turns rfl, ⟨by decide, by decide⟩, by decide, by decide⟩

/-- spec/95 V54. -/
theorem witness_OpenInitiatorAwaitsGrant_syn :
    (OwnTurn (got (initiator .openEx .s1 1000#32 0#32) (image ⟨8080#16, 40000#16, 5000#32, 1001#32, 0x6010#16, 0#16, 0xCCAD#16, 0#16, 0#32⟩)) (got (initiator .openEx .s1 1000#32 0#32) (image ⟨8080#16, 40000#16, 5000#32, 1001#32, 0x6010#16, 0#16, 0xCCAD#16, 0#16, 0#32⟩)) ∧ OwnTurn (advancing (got (initiator .openEx .s1 1000#32 0#32) (image ⟨8080#16, 40000#16, 5000#32, 1001#32, 0x6010#16, 0#16, 0xCCAD#16, 0#16, 0#32⟩))) (got (initiator .openEx .s1 1000#32 0#32) (image ⟨8080#16, 40000#16, 5000#32, 1001#32, 0x6010#16, 0#16, 0xCCAD#16, 0#16, 0#32⟩))) ∧
    AtReceive (got (initiator .openEx .s1 1000#32 0#32) (image ⟨8080#16, 40000#16, 5000#32, 1001#32, 0x6010#16, 0#16, 0xCCAD#16, 0#16, 0#32⟩)) .oiAwaitGrant ∧
    recvAnswer (got (initiator .openEx .s1 1000#32 0#32) (image ⟨8080#16, 40000#16, 5000#32, 1001#32, 0x6010#16, 0#16, 0xCCAD#16, 0#16, 0#32⟩)) = .bytes (image ⟨8080#16, 40000#16, 5000#32, 1001#32, 0x6010#16, 0#16, 0xCCAD#16, 0#16, 0#32⟩) ∧
    after (step (advancing (got (initiator .openEx .s1 1000#32 0#32) (image ⟨8080#16, 40000#16, 5000#32, 1001#32, 0x6010#16, 0#16, 0xCCAD#16, 0#16, 0#32⟩)))) (fun t => t.seg == ⟨8080#16, 40000#16, 5000#32, 1001#32, 0x6010#16, 0#16, 0xCCAD#16, 0#16, 0#32⟩ && t.err == checkErr (initiator .openEx .s1 1000#32 0#32) .flagMismatch .syn 0x02#32 0x10#32) = true :=
  ⟨turns rfl, ⟨by decide, by decide⟩, by decide, by decide⟩

/-- spec/95 V55. -/
theorem witness_OpenInitiatorAwaitsGrant_ackFlag :
    (OwnTurn (got (initiator .openEx .s1 1000#32 0#32) (image ⟨8080#16, 40000#16, 5000#32, 1001#32, 0x6002#16, 0#16, 0xCCBB#16, 0#16, 0#32⟩)) (got (initiator .openEx .s1 1000#32 0#32) (image ⟨8080#16, 40000#16, 5000#32, 1001#32, 0x6002#16, 0#16, 0xCCBB#16, 0#16, 0#32⟩)) ∧ OwnTurn (advancing (got (initiator .openEx .s1 1000#32 0#32) (image ⟨8080#16, 40000#16, 5000#32, 1001#32, 0x6002#16, 0#16, 0xCCBB#16, 0#16, 0#32⟩))) (got (initiator .openEx .s1 1000#32 0#32) (image ⟨8080#16, 40000#16, 5000#32, 1001#32, 0x6002#16, 0#16, 0xCCBB#16, 0#16, 0#32⟩))) ∧
    AtReceive (got (initiator .openEx .s1 1000#32 0#32) (image ⟨8080#16, 40000#16, 5000#32, 1001#32, 0x6002#16, 0#16, 0xCCBB#16, 0#16, 0#32⟩)) .oiAwaitGrant ∧
    recvAnswer (got (initiator .openEx .s1 1000#32 0#32) (image ⟨8080#16, 40000#16, 5000#32, 1001#32, 0x6002#16, 0#16, 0xCCBB#16, 0#16, 0#32⟩)) = .bytes (image ⟨8080#16, 40000#16, 5000#32, 1001#32, 0x6002#16, 0#16, 0xCCBB#16, 0#16, 0#32⟩) ∧
    after (step (advancing (got (initiator .openEx .s1 1000#32 0#32) (image ⟨8080#16, 40000#16, 5000#32, 1001#32, 0x6002#16, 0#16, 0xCCBB#16, 0#16, 0#32⟩)))) (fun t => t.seg == ⟨8080#16, 40000#16, 5000#32, 1001#32, 0x6002#16, 0#16, 0xCCBB#16, 0#16, 0#32⟩ && t.err == checkErr (initiator .openEx .s1 1000#32 0#32) .flagMismatch .ack 0x10#32 0x02#32) = true :=
  ⟨turns rfl, ⟨by decide, by decide⟩, by decide, by decide⟩

/-- spec/95 V53. -/
theorem witness_OpenInitiatorAwaitsGrant_checksum :
    (OwnTurn (got (initiator .openEx .s1 1000#32 0#32) (image ⟨8080#16, 40000#16, 5000#32, 1001#32, 0x6012#16, 0#16, 0xCCAC#16, 0#16, 0#32⟩)) (got (initiator .openEx .s1 1000#32 0#32) (image ⟨8080#16, 40000#16, 5000#32, 1001#32, 0x6012#16, 0#16, 0xCCAC#16, 0#16, 0#32⟩)) ∧ OwnTurn (advancing (got (initiator .openEx .s1 1000#32 0#32) (image ⟨8080#16, 40000#16, 5000#32, 1001#32, 0x6012#16, 0#16, 0xCCAC#16, 0#16, 0#32⟩))) (got (initiator .openEx .s1 1000#32 0#32) (image ⟨8080#16, 40000#16, 5000#32, 1001#32, 0x6012#16, 0#16, 0xCCAC#16, 0#16, 0#32⟩))) ∧
    AtReceive (got (initiator .openEx .s1 1000#32 0#32) (image ⟨8080#16, 40000#16, 5000#32, 1001#32, 0x6012#16, 0#16, 0xCCAC#16, 0#16, 0#32⟩)) .oiAwaitGrant ∧
    recvAnswer (got (initiator .openEx .s1 1000#32 0#32) (image ⟨8080#16, 40000#16, 5000#32, 1001#32, 0x6012#16, 0#16, 0xCCAC#16, 0#16, 0#32⟩)) = .bytes (image ⟨8080#16, 40000#16, 5000#32, 1001#32, 0x6012#16, 0#16, 0xCCAC#16, 0#16, 0#32⟩) ∧
    after (step (advancing (got (initiator .openEx .s1 1000#32 0#32) (image ⟨8080#16, 40000#16, 5000#32, 1001#32, 0x6012#16, 0#16, 0xCCAC#16, 0#16, 0#32⟩)))) (fun t => t.seg == ⟨8080#16, 40000#16, 5000#32, 1001#32, 0x6012#16, 0#16, 0xCCAC#16, 0#16, 0#32⟩ && t.err == checkErr (initiator .openEx .s1 1000#32 0#32) .checksumMismatch .fin 0xCCAB#32 0xCCAC#32) = true :=
  ⟨turns rfl, ⟨by decide, by decide⟩, by decide, by decide⟩

/-- spec/95 V57. -/
theorem witness_OpenInitiatorAwaitsGrant_passes :
    (OwnTurn (got (initiator .openEx .s1 1000#32 0#32) (image ⟨8080#16, 40000#16, 0xFFFFFFFF#32, 1001#32, 0x6012#16, 0#16, 0xE033#16, 0#16, 0#32⟩)) (got (initiator .openEx .s1 1000#32 0#32) (image ⟨8080#16, 40000#16, 0xFFFFFFFF#32, 1001#32, 0x6012#16, 0#16, 0xE033#16, 0#16, 0#32⟩)) ∧ OwnTurn (advancing (got (initiator .openEx .s1 1000#32 0#32) (image ⟨8080#16, 40000#16, 0xFFFFFFFF#32, 1001#32, 0x6012#16, 0#16, 0xE033#16, 0#16, 0#32⟩))) (got (initiator .openEx .s1 1000#32 0#32) (image ⟨8080#16, 40000#16, 0xFFFFFFFF#32, 1001#32, 0x6012#16, 0#16, 0xE033#16, 0#16, 0#32⟩))) ∧
    AtReceive (got (initiator .openEx .s1 1000#32 0#32) (image ⟨8080#16, 40000#16, 0xFFFFFFFF#32, 1001#32, 0x6012#16, 0#16, 0xE033#16, 0#16, 0#32⟩)) .oiAwaitGrant ∧
    recvAnswer (got (initiator .openEx .s1 1000#32 0#32) (image ⟨8080#16, 40000#16, 0xFFFFFFFF#32, 1001#32, 0x6012#16, 0#16, 0xE033#16, 0#16, 0#32⟩)) = .bytes (image ⟨8080#16, 40000#16, 0xFFFFFFFF#32, 1001#32, 0x6012#16, 0#16, 0xE033#16, 0#16, 0#32⟩) ∧
    after (step (advancing (got (initiator .openEx .s1 1000#32 0#32) (image ⟨8080#16, 40000#16, 0xFFFFFFFF#32, 1001#32, 0x6012#16, 0#16, 0xE033#16, 0#16, 0#32⟩)))) (fun t => t.seg == ⟨8080#16, 40000#16, 0xFFFFFFFF#32, 1001#32, 0x6012#16, 0#16, 0xE033#16, 0#16, 0#32⟩ && t.peerSeq == 0xFFFFFFFF#32 && t.stepIx == .s2 && t.status.run == .busy && t.err == ErrReg.zero) = true :=
  ⟨turns rfl, ⟨by decide, by decide⟩, by decide, by decide⟩

/-- spec/60 rule R182, on O1 with another checksum. -/
theorem witness_OpenResponderAwaitsRequest_checksum :
    (OwnTurn (got (responder .openEx .s0 0#32 0#32) (image ⟨40000#16, 8080#16, 1000#32, 0#32, 0x6002#16, 0#16, 0xE045#16, 0#16, 0#32⟩)) (got (responder .openEx .s0 0#32 0#32) (image ⟨40000#16, 8080#16, 1000#32, 0#32, 0x6002#16, 0#16, 0xE045#16, 0#16, 0#32⟩)) ∧ OwnTurn (advancing (got (responder .openEx .s0 0#32 0#32) (image ⟨40000#16, 8080#16, 1000#32, 0#32, 0x6002#16, 0#16, 0xE045#16, 0#16, 0#32⟩))) (got (responder .openEx .s0 0#32 0#32) (image ⟨40000#16, 8080#16, 1000#32, 0#32, 0x6002#16, 0#16, 0xE045#16, 0#16, 0#32⟩))) ∧
    AtReceive (got (responder .openEx .s0 0#32 0#32) (image ⟨40000#16, 8080#16, 1000#32, 0#32, 0x6002#16, 0#16, 0xE045#16, 0#16, 0#32⟩)) .orAwaitRequest ∧
    recvAnswer (got (responder .openEx .s0 0#32 0#32) (image ⟨40000#16, 8080#16, 1000#32, 0#32, 0x6002#16, 0#16, 0xE045#16, 0#16, 0#32⟩)) = .bytes (image ⟨40000#16, 8080#16, 1000#32, 0#32, 0x6002#16, 0#16, 0xE045#16, 0#16, 0#32⟩) ∧
    after (step (advancing (got (responder .openEx .s0 0#32 0#32) (image ⟨40000#16, 8080#16, 1000#32, 0#32, 0x6002#16, 0#16, 0xE045#16, 0#16, 0#32⟩)))) (fun t => t.seg == ⟨40000#16, 8080#16, 1000#32, 0#32, 0x6002#16, 0#16, 0xE045#16, 0#16, 0#32⟩ && t.err == checkErr (responder .openEx .s0 0#32 0#32) .checksumMismatch .fin 0xE044#32 0xE045#32) = true :=
  ⟨turns rfl, ⟨by decide, by decide⟩, by decide, by decide⟩

/-- spec/95 V59. -/
theorem witness_OpenResponderAwaitsRequest_syn :
    (OwnTurn (got (responder .openEx .s0 0#32 0#32) (image k1)) (got (responder .openEx .s0 0#32 0#32) (image k1)) ∧ OwnTurn (advancing (got (responder .openEx .s0 0#32 0#32) (image k1))) (got (responder .openEx .s0 0#32 0#32) (image k1))) ∧
    AtReceive (got (responder .openEx .s0 0#32 0#32) (image k1)) .orAwaitRequest ∧
    recvAnswer (got (responder .openEx .s0 0#32 0#32) (image k1)) = .bytes (image k1) ∧
    after (step (advancing (got (responder .openEx .s0 0#32 0#32) (image k1)))) (fun t => t.seg == k1 && t.err == checkErr (responder .openEx .s0 0#32 0#32) .flagMismatch .syn 0x02#32 0x01#32) = true :=
  ⟨turns rfl, ⟨by decide, by decide⟩, by decide, by decide⟩

/-- spec/95 V60. -/
theorem witness_OpenResponderAwaitsRequest_passes :
    (OwnTurn (got (responder .openEx .s0 0#32 0#32) (image ⟨40000#16, 8080#16, 1000#32, 77#32, 0x6002#16, 0#16, 0xDFF7#16, 0#16, 0#32⟩)) (got (responder .openEx .s0 0#32 0#32) (image ⟨40000#16, 8080#16, 1000#32, 77#32, 0x6002#16, 0#16, 0xDFF7#16, 0#16, 0#32⟩)) ∧ OwnTurn (advancing (got (responder .openEx .s0 0#32 0#32) (image ⟨40000#16, 8080#16, 1000#32, 77#32, 0x6002#16, 0#16, 0xDFF7#16, 0#16, 0#32⟩))) (got (responder .openEx .s0 0#32 0#32) (image ⟨40000#16, 8080#16, 1000#32, 77#32, 0x6002#16, 0#16, 0xDFF7#16, 0#16, 0#32⟩))) ∧
    AtReceive (got (responder .openEx .s0 0#32 0#32) (image ⟨40000#16, 8080#16, 1000#32, 77#32, 0x6002#16, 0#16, 0xDFF7#16, 0#16, 0#32⟩)) .orAwaitRequest ∧
    recvAnswer (got (responder .openEx .s0 0#32 0#32) (image ⟨40000#16, 8080#16, 1000#32, 77#32, 0x6002#16, 0#16, 0xDFF7#16, 0#16, 0#32⟩)) = .bytes (image ⟨40000#16, 8080#16, 1000#32, 77#32, 0x6002#16, 0#16, 0xDFF7#16, 0#16, 0#32⟩) ∧
    after (step (advancing (got (responder .openEx .s0 0#32 0#32) (image ⟨40000#16, 8080#16, 1000#32, 77#32, 0x6002#16, 0#16, 0xDFF7#16, 0#16, 0#32⟩)))) (fun t => t.seg == ⟨40000#16, 8080#16, 1000#32, 77#32, 0x6002#16, 0#16, 0xDFF7#16, 0#16, 0#32⟩ && t.peerSeq == 1000#32 && t.stepIx == .s1 && t.status.run == .busy && t.err == ErrReg.zero) = true :=
  ⟨turns rfl, ⟨by decide, by decide⟩, by decide, by decide⟩

/-- spec/95 V65. -/
theorem witness_FinalAcknowledgmentIsValidated_checksum :
    (OwnTurn (got (responder .openEx .s2 5000#32 1000#32) (image ⟨40000#16, 8080#16, 1002#32, 5002#32, 0x6010#16, 0#16, 0xCCAC#16, 0#16, 0#32⟩)) (got (responder .openEx .s2 5000#32 1000#32) (image ⟨40000#16, 8080#16, 1002#32, 5002#32, 0x6010#16, 0#16, 0xCCAC#16, 0#16, 0#32⟩)) ∧ OwnTurn (advancing (got (responder .openEx .s2 5000#32 1000#32) (image ⟨40000#16, 8080#16, 1002#32, 5002#32, 0x6010#16, 0#16, 0xCCAC#16, 0#16, 0#32⟩))) (got (responder .openEx .s2 5000#32 1000#32) (image ⟨40000#16, 8080#16, 1002#32, 5002#32, 0x6010#16, 0#16, 0xCCAC#16, 0#16, 0#32⟩))) ∧
    AtReceive (got (responder .openEx .s2 5000#32 1000#32) (image ⟨40000#16, 8080#16, 1002#32, 5002#32, 0x6010#16, 0#16, 0xCCAC#16, 0#16, 0#32⟩)) .orAwaitAck ∧
    recvAnswer (got (responder .openEx .s2 5000#32 1000#32) (image ⟨40000#16, 8080#16, 1002#32, 5002#32, 0x6010#16, 0#16, 0xCCAC#16, 0#16, 0#32⟩)) = .bytes (image ⟨40000#16, 8080#16, 1002#32, 5002#32, 0x6010#16, 0#16, 0xCCAC#16, 0#16, 0#32⟩) ∧
    after (step (advancing (got (responder .openEx .s2 5000#32 1000#32) (image ⟨40000#16, 8080#16, 1002#32, 5002#32, 0x6010#16, 0#16, 0xCCAC#16, 0#16, 0#32⟩)))) (fun t => t.seg == ⟨40000#16, 8080#16, 1002#32, 5002#32, 0x6010#16, 0#16, 0xCCAC#16, 0#16, 0#32⟩ && t.err == checkErr (responder .openEx .s2 5000#32 1000#32) .checksumMismatch .fin 0xCCAA#32 0xCCAC#32) = true :=
  ⟨turns rfl, ⟨by decide, by decide⟩, by decide, by decide⟩

/-- spec/95 V62. -/
theorem witness_FinalAcknowledgmentIsValidated_seq :
    (OwnTurn (got (responder .openEx .s2 5000#32 1000#32) (image ⟨40000#16, 8080#16, 1002#32, 5001#32, 0x6010#16, 0#16, 0xCCAB#16, 0#16, 0#32⟩)) (got (responder .openEx .s2 5000#32 1000#32) (image ⟨40000#16, 8080#16, 1002#32, 5001#32, 0x6010#16, 0#16, 0xCCAB#16, 0#16, 0#32⟩)) ∧ OwnTurn (advancing (got (responder .openEx .s2 5000#32 1000#32) (image ⟨40000#16, 8080#16, 1002#32, 5001#32, 0x6010#16, 0#16, 0xCCAB#16, 0#16, 0#32⟩))) (got (responder .openEx .s2 5000#32 1000#32) (image ⟨40000#16, 8080#16, 1002#32, 5001#32, 0x6010#16, 0#16, 0xCCAB#16, 0#16, 0#32⟩))) ∧
    AtReceive (got (responder .openEx .s2 5000#32 1000#32) (image ⟨40000#16, 8080#16, 1002#32, 5001#32, 0x6010#16, 0#16, 0xCCAB#16, 0#16, 0#32⟩)) .orAwaitAck ∧
    recvAnswer (got (responder .openEx .s2 5000#32 1000#32) (image ⟨40000#16, 8080#16, 1002#32, 5001#32, 0x6010#16, 0#16, 0xCCAB#16, 0#16, 0#32⟩)) = .bytes (image ⟨40000#16, 8080#16, 1002#32, 5001#32, 0x6010#16, 0#16, 0xCCAB#16, 0#16, 0#32⟩) ∧
    after (step (advancing (got (responder .openEx .s2 5000#32 1000#32) (image ⟨40000#16, 8080#16, 1002#32, 5001#32, 0x6010#16, 0#16, 0xCCAB#16, 0#16, 0#32⟩)))) (fun t => t.seg == ⟨40000#16, 8080#16, 1002#32, 5001#32, 0x6010#16, 0#16, 0xCCAB#16, 0#16, 0#32⟩ && t.err == checkErr (responder .openEx .s2 5000#32 1000#32) .sequenceMismatch .fin 0x3E9#32 0x3EA#32) = true :=
  ⟨turns rfl, ⟨by decide, by decide⟩, by decide, by decide⟩

/-- spec/95 V63. -/
theorem witness_FinalAcknowledgmentIsValidated_ack :
    (OwnTurn (got (responder .openEx .s2 5000#32 1000#32) (image ⟨40000#16, 8080#16, 1001#32, 5002#32, 0x6010#16, 0#16, 0xCCAB#16, 0#16, 0#32⟩)) (got (responder .openEx .s2 5000#32 1000#32) (image ⟨40000#16, 8080#16, 1001#32, 5002#32, 0x6010#16, 0#16, 0xCCAB#16, 0#16, 0#32⟩)) ∧ OwnTurn (advancing (got (responder .openEx .s2 5000#32 1000#32) (image ⟨40000#16, 8080#16, 1001#32, 5002#32, 0x6010#16, 0#16, 0xCCAB#16, 0#16, 0#32⟩))) (got (responder .openEx .s2 5000#32 1000#32) (image ⟨40000#16, 8080#16, 1001#32, 5002#32, 0x6010#16, 0#16, 0xCCAB#16, 0#16, 0#32⟩))) ∧
    AtReceive (got (responder .openEx .s2 5000#32 1000#32) (image ⟨40000#16, 8080#16, 1001#32, 5002#32, 0x6010#16, 0#16, 0xCCAB#16, 0#16, 0#32⟩)) .orAwaitAck ∧
    recvAnswer (got (responder .openEx .s2 5000#32 1000#32) (image ⟨40000#16, 8080#16, 1001#32, 5002#32, 0x6010#16, 0#16, 0xCCAB#16, 0#16, 0#32⟩)) = .bytes (image ⟨40000#16, 8080#16, 1001#32, 5002#32, 0x6010#16, 0#16, 0xCCAB#16, 0#16, 0#32⟩) ∧
    after (step (advancing (got (responder .openEx .s2 5000#32 1000#32) (image ⟨40000#16, 8080#16, 1001#32, 5002#32, 0x6010#16, 0#16, 0xCCAB#16, 0#16, 0#32⟩)))) (fun t => t.seg == ⟨40000#16, 8080#16, 1001#32, 5002#32, 0x6010#16, 0#16, 0xCCAB#16, 0#16, 0#32⟩ && t.err == checkErr (responder .openEx .s2 5000#32 1000#32) .acknowledgmentMismatch .fin 0x1389#32 0x138A#32) = true :=
  ⟨turns rfl, ⟨by decide, by decide⟩, by decide, by decide⟩

/-- spec/95 V64. -/
theorem witness_FinalAcknowledgmentIsValidated_flag :
    (OwnTurn (got (responder .openEx .s2 5000#32 1000#32) (image ⟨40000#16, 8080#16, 1001#32, 5001#32, 0x6002#16, 0#16, 0xCCBA#16, 0#16, 0#32⟩)) (got (responder .openEx .s2 5000#32 1000#32) (image ⟨40000#16, 8080#16, 1001#32, 5001#32, 0x6002#16, 0#16, 0xCCBA#16, 0#16, 0#32⟩)) ∧ OwnTurn (advancing (got (responder .openEx .s2 5000#32 1000#32) (image ⟨40000#16, 8080#16, 1001#32, 5001#32, 0x6002#16, 0#16, 0xCCBA#16, 0#16, 0#32⟩))) (got (responder .openEx .s2 5000#32 1000#32) (image ⟨40000#16, 8080#16, 1001#32, 5001#32, 0x6002#16, 0#16, 0xCCBA#16, 0#16, 0#32⟩))) ∧
    AtReceive (got (responder .openEx .s2 5000#32 1000#32) (image ⟨40000#16, 8080#16, 1001#32, 5001#32, 0x6002#16, 0#16, 0xCCBA#16, 0#16, 0#32⟩)) .orAwaitAck ∧
    recvAnswer (got (responder .openEx .s2 5000#32 1000#32) (image ⟨40000#16, 8080#16, 1001#32, 5001#32, 0x6002#16, 0#16, 0xCCBA#16, 0#16, 0#32⟩)) = .bytes (image ⟨40000#16, 8080#16, 1001#32, 5001#32, 0x6002#16, 0#16, 0xCCBA#16, 0#16, 0#32⟩) ∧
    after (step (advancing (got (responder .openEx .s2 5000#32 1000#32) (image ⟨40000#16, 8080#16, 1001#32, 5001#32, 0x6002#16, 0#16, 0xCCBA#16, 0#16, 0#32⟩)))) (fun t => t.seg == ⟨40000#16, 8080#16, 1001#32, 5001#32, 0x6002#16, 0#16, 0xCCBA#16, 0#16, 0#32⟩ && t.err == checkErr (responder .openEx .s2 5000#32 1000#32) .flagMismatch .ack 0x10#32 0x02#32) = true :=
  ⟨turns rfl, ⟨by decide, by decide⟩, by decide, by decide⟩

/-- spec/95 V61. -/
theorem witness_FinalAcknowledgmentIsValidated_passes :
    (OwnTurn (got (responder .openEx .s2 5000#32 1000#32) (image o3)) (got (responder .openEx .s2 5000#32 1000#32) (image o3)) ∧ OwnTurn (advancing (got (responder .openEx .s2 5000#32 1000#32) (image o3))) (got (responder .openEx .s2 5000#32 1000#32) (image o3))) ∧
    AtReceive (got (responder .openEx .s2 5000#32 1000#32) (image o3)) .orAwaitAck ∧
    recvAnswer (got (responder .openEx .s2 5000#32 1000#32) (image o3)) = .bytes (image o3) ∧
    after (step (advancing (got (responder .openEx .s2 5000#32 1000#32) (image o3)))) (fun t => t.seg == o3 && t.peerSeq == 1000#32 && t.stepIx == .s2 && t.status.run == .done && t.err == ErrReg.zero) = true :=
  ⟨turns rfl, ⟨by decide, by decide⟩, by decide, by decide⟩

/-- spec/95 V75. -/
theorem witness_FinalAcknowledgmentIsValidated_closes :
    (OwnTurn (got (responder .closeEx .s3 9000#32 2000#32) (image k4)) (got (responder .closeEx .s3 9000#32 2000#32) (image k4)) ∧ OwnTurn (advancing (got (responder .closeEx .s3 9000#32 2000#32) (image k4))) (got (responder .closeEx .s3 9000#32 2000#32) (image k4))) ∧
    AtReceive (got (responder .closeEx .s3 9000#32 2000#32) (image k4)) .crAwaitAck ∧
    recvAnswer (got (responder .closeEx .s3 9000#32 2000#32) (image k4)) = .bytes (image k4) ∧
    after (step (advancing (got (responder .closeEx .s3 9000#32 2000#32) (image k4)))) (fun t => t.seg == k4 && t.peerSeq == 2000#32 && t.stepIx == .s3 && t.status.run == .done && t.err == ErrReg.zero) = true :=
  ⟨turns rfl, ⟨by decide, by decide⟩, by decide, by decide⟩

/-- spec/60 rule R182, on K2 with another checksum. -/
theorem witness_CloseInitiatorAwaitsAcknowledgment_checksum :
    (OwnTurn (got (initiator .closeEx .s1 2000#32 0#32) (image ⟨8080#16, 40000#16, 9000#32, 2001#32, 0x6010#16, 0#16, 0xB926#16, 0#16, 0#32⟩)) (got (initiator .closeEx .s1 2000#32 0#32) (image ⟨8080#16, 40000#16, 9000#32, 2001#32, 0x6010#16, 0#16, 0xB926#16, 0#16, 0#32⟩)) ∧ OwnTurn (advancing (got (initiator .closeEx .s1 2000#32 0#32) (image ⟨8080#16, 40000#16, 9000#32, 2001#32, 0x6010#16, 0#16, 0xB926#16, 0#16, 0#32⟩))) (got (initiator .closeEx .s1 2000#32 0#32) (image ⟨8080#16, 40000#16, 9000#32, 2001#32, 0x6010#16, 0#16, 0xB926#16, 0#16, 0#32⟩))) ∧
    AtReceive (got (initiator .closeEx .s1 2000#32 0#32) (image ⟨8080#16, 40000#16, 9000#32, 2001#32, 0x6010#16, 0#16, 0xB926#16, 0#16, 0#32⟩)) .ciAwaitAck1 ∧
    recvAnswer (got (initiator .closeEx .s1 2000#32 0#32) (image ⟨8080#16, 40000#16, 9000#32, 2001#32, 0x6010#16, 0#16, 0xB926#16, 0#16, 0#32⟩)) = .bytes (image ⟨8080#16, 40000#16, 9000#32, 2001#32, 0x6010#16, 0#16, 0xB926#16, 0#16, 0#32⟩) ∧
    after (step (advancing (got (initiator .closeEx .s1 2000#32 0#32) (image ⟨8080#16, 40000#16, 9000#32, 2001#32, 0x6010#16, 0#16, 0xB926#16, 0#16, 0#32⟩)))) (fun t => t.seg == ⟨8080#16, 40000#16, 9000#32, 2001#32, 0x6010#16, 0#16, 0xB926#16, 0#16, 0#32⟩ && t.err == checkErr (initiator .closeEx .s1 2000#32 0#32) .checksumMismatch .fin 0xB925#32 0xB926#32) = true :=
  ⟨turns rfl, ⟨by decide, by decide⟩, by decide, by decide⟩

/-- spec/60 rule R184, on K2 restamped. -/
theorem witness_CloseInitiatorAwaitsAcknowledgment_ack :
    (OwnTurn (got (initiator .closeEx .s1 2000#32 0#32) (image ⟨8080#16, 40000#16, 9000#32, 2000#32, 0x6010#16, 0#16, 0xB926#16, 0#16, 0#32⟩)) (got (initiator .closeEx .s1 2000#32 0#32) (image ⟨8080#16, 40000#16, 9000#32, 2000#32, 0x6010#16, 0#16, 0xB926#16, 0#16, 0#32⟩)) ∧ OwnTurn (advancing (got (initiator .closeEx .s1 2000#32 0#32) (image ⟨8080#16, 40000#16, 9000#32, 2000#32, 0x6010#16, 0#16, 0xB926#16, 0#16, 0#32⟩))) (got (initiator .closeEx .s1 2000#32 0#32) (image ⟨8080#16, 40000#16, 9000#32, 2000#32, 0x6010#16, 0#16, 0xB926#16, 0#16, 0#32⟩))) ∧
    AtReceive (got (initiator .closeEx .s1 2000#32 0#32) (image ⟨8080#16, 40000#16, 9000#32, 2000#32, 0x6010#16, 0#16, 0xB926#16, 0#16, 0#32⟩)) .ciAwaitAck1 ∧
    recvAnswer (got (initiator .closeEx .s1 2000#32 0#32) (image ⟨8080#16, 40000#16, 9000#32, 2000#32, 0x6010#16, 0#16, 0xB926#16, 0#16, 0#32⟩)) = .bytes (image ⟨8080#16, 40000#16, 9000#32, 2000#32, 0x6010#16, 0#16, 0xB926#16, 0#16, 0#32⟩) ∧
    after (step (advancing (got (initiator .closeEx .s1 2000#32 0#32) (image ⟨8080#16, 40000#16, 9000#32, 2000#32, 0x6010#16, 0#16, 0xB926#16, 0#16, 0#32⟩)))) (fun t => t.seg == ⟨8080#16, 40000#16, 9000#32, 2000#32, 0x6010#16, 0#16, 0xB926#16, 0#16, 0#32⟩ && t.err == checkErr (initiator .closeEx .s1 2000#32 0#32) .acknowledgmentMismatch .fin 0x7D1#32 0x7D0#32) = true :=
  ⟨turns rfl, ⟨by decide, by decide⟩, by decide, by decide⟩

/-- spec/60 rule R185, on K3. -/
theorem witness_CloseInitiatorAwaitsAcknowledgment_flag :
    (OwnTurn (got (initiator .closeEx .s1 2000#32 0#32) (image k3)) (got (initiator .closeEx .s1 2000#32 0#32) (image k3)) ∧ OwnTurn (advancing (got (initiator .closeEx .s1 2000#32 0#32) (image k3))) (got (initiator .closeEx .s1 2000#32 0#32) (image k3))) ∧
    AtReceive (got (initiator .closeEx .s1 2000#32 0#32) (image k3)) .ciAwaitAck1 ∧
    recvAnswer (got (initiator .closeEx .s1 2000#32 0#32) (image k3)) = .bytes (image k3) ∧
    after (step (advancing (got (initiator .closeEx .s1 2000#32 0#32) (image k3)))) (fun t => t.seg == k3 && t.err == checkErr (initiator .closeEx .s1 2000#32 0#32) .flagMismatch .ack 0x10#32 0x01#32) = true :=
  ⟨turns rfl, ⟨by decide, by decide⟩, by decide, by decide⟩

/-- spec/95 V66. -/
theorem witness_CloseInitiatorAwaitsAcknowledgment_passes :
    (OwnTurn (got (initiator .closeEx .s1 2000#32 0#32) (image k2)) (got (initiator .closeEx .s1 2000#32 0#32) (image k2)) ∧ OwnTurn (advancing (got (initiator .closeEx .s1 2000#32 0#32) (image k2))) (got (initiator .closeEx .s1 2000#32 0#32) (image k2))) ∧
    AtReceive (got (initiator .closeEx .s1 2000#32 0#32) (image k2)) .ciAwaitAck1 ∧
    recvAnswer (got (initiator .closeEx .s1 2000#32 0#32) (image k2)) = .bytes (image k2) ∧
    after (step (advancing (got (initiator .closeEx .s1 2000#32 0#32) (image k2)))) (fun t => t.seg == k2 && t.peerSeq == 9000#32 && t.stepIx == .s2 && t.status.run == .busy && t.err == ErrReg.zero) = true :=
  ⟨turns rfl, ⟨by decide, by decide⟩, by decide, by decide⟩

/-- spec/60 rule R182, on K3 with another checksum. -/
theorem witness_CloseInitiatorAwaitsFin_checksum :
    (OwnTurn (got (initiator .closeEx .s2 2000#32 9000#32) (image ⟨8080#16, 40000#16, 9000#32, 2001#32, 0x6001#16, 0#16, 0xB935#16, 0#16, 0#32⟩)) (got (initiator .closeEx .s2 2000#32 9000#32) (image ⟨8080#16, 40000#16, 9000#32, 2001#32, 0x6001#16, 0#16, 0xB935#16, 0#16, 0#32⟩)) ∧ OwnTurn (advancing (got (initiator .closeEx .s2 2000#32 9000#32) (image ⟨8080#16, 40000#16, 9000#32, 2001#32, 0x6001#16, 0#16, 0xB935#16, 0#16, 0#32⟩))) (got (initiator .closeEx .s2 2000#32 9000#32) (image ⟨8080#16, 40000#16, 9000#32, 2001#32, 0x6001#16, 0#16, 0xB935#16, 0#16, 0#32⟩))) ∧
    AtReceive (got (initiator .closeEx .s2 2000#32 9000#32) (image ⟨8080#16, 40000#16, 9000#32, 2001#32, 0x6001#16, 0#16, 0xB935#16, 0#16, 0#32⟩)) .ciAwaitFin ∧
    recvAnswer (got (initiator .closeEx .s2 2000#32 9000#32) (image ⟨8080#16, 40000#16, 9000#32, 2001#32, 0x6001#16, 0#16, 0xB935#16, 0#16, 0#32⟩)) = .bytes (image ⟨8080#16, 40000#16, 9000#32, 2001#32, 0x6001#16, 0#16, 0xB935#16, 0#16, 0#32⟩) ∧
    after (step (advancing (got (initiator .closeEx .s2 2000#32 9000#32) (image ⟨8080#16, 40000#16, 9000#32, 2001#32, 0x6001#16, 0#16, 0xB935#16, 0#16, 0#32⟩)))) (fun t => t.seg == ⟨8080#16, 40000#16, 9000#32, 2001#32, 0x6001#16, 0#16, 0xB935#16, 0#16, 0#32⟩ && t.err == checkErr (initiator .closeEx .s2 2000#32 9000#32) .checksumMismatch .fin 0xB934#32 0xB935#32) = true :=
  ⟨turns rfl, ⟨by decide, by decide⟩, by decide, by decide⟩

/-- spec/95 V69. -/
theorem witness_CloseInitiatorAwaitsFin_ack :
    (OwnTurn (got (initiator .closeEx .s2 2000#32 9000#32) (image ⟨8080#16, 40000#16, 9000#32, 2000#32, 0x6001#16, 0#16, 0xB935#16, 0#16, 0#32⟩)) (got (initiator .closeEx .s2 2000#32 9000#32) (image ⟨8080#16, 40000#16, 9000#32, 2000#32, 0x6001#16, 0#16, 0xB935#16, 0#16, 0#32⟩)) ∧ OwnTurn (advancing (got (initiator .closeEx .s2 2000#32 9000#32) (image ⟨8080#16, 40000#16, 9000#32, 2000#32, 0x6001#16, 0#16, 0xB935#16, 0#16, 0#32⟩))) (got (initiator .closeEx .s2 2000#32 9000#32) (image ⟨8080#16, 40000#16, 9000#32, 2000#32, 0x6001#16, 0#16, 0xB935#16, 0#16, 0#32⟩))) ∧
    AtReceive (got (initiator .closeEx .s2 2000#32 9000#32) (image ⟨8080#16, 40000#16, 9000#32, 2000#32, 0x6001#16, 0#16, 0xB935#16, 0#16, 0#32⟩)) .ciAwaitFin ∧
    recvAnswer (got (initiator .closeEx .s2 2000#32 9000#32) (image ⟨8080#16, 40000#16, 9000#32, 2000#32, 0x6001#16, 0#16, 0xB935#16, 0#16, 0#32⟩)) = .bytes (image ⟨8080#16, 40000#16, 9000#32, 2000#32, 0x6001#16, 0#16, 0xB935#16, 0#16, 0#32⟩) ∧
    after (step (advancing (got (initiator .closeEx .s2 2000#32 9000#32) (image ⟨8080#16, 40000#16, 9000#32, 2000#32, 0x6001#16, 0#16, 0xB935#16, 0#16, 0#32⟩)))) (fun t => t.seg == ⟨8080#16, 40000#16, 9000#32, 2000#32, 0x6001#16, 0#16, 0xB935#16, 0#16, 0#32⟩ && t.err == checkErr (initiator .closeEx .s2 2000#32 9000#32) .acknowledgmentMismatch .fin 0x7D1#32 0x7D0#32) = true :=
  ⟨turns rfl, ⟨by decide, by decide⟩, by decide, by decide⟩

/-- spec/95 V70. -/
theorem witness_CloseInitiatorAwaitsFin_flag :
    (OwnTurn (got (initiator .closeEx .s2 2000#32 9000#32) (image k2)) (got (initiator .closeEx .s2 2000#32 9000#32) (image k2)) ∧ OwnTurn (advancing (got (initiator .closeEx .s2 2000#32 9000#32) (image k2))) (got (initiator .closeEx .s2 2000#32 9000#32) (image k2))) ∧
    AtReceive (got (initiator .closeEx .s2 2000#32 9000#32) (image k2)) .ciAwaitFin ∧
    recvAnswer (got (initiator .closeEx .s2 2000#32 9000#32) (image k2)) = .bytes (image k2) ∧
    after (step (advancing (got (initiator .closeEx .s2 2000#32 9000#32) (image k2)))) (fun t => t.seg == k2 && t.err == checkErr (initiator .closeEx .s2 2000#32 9000#32) .flagMismatch .fin 0x01#32 0x10#32) = true :=
  ⟨turns rfl, ⟨by decide, by decide⟩, by decide, by decide⟩

/-- spec/95 V68. -/
theorem witness_CloseInitiatorAwaitsFin_passes :
    (OwnTurn (got (initiator .closeEx .s2 2000#32 9000#32) (image k3)) (got (initiator .closeEx .s2 2000#32 9000#32) (image k3)) ∧ OwnTurn (advancing (got (initiator .closeEx .s2 2000#32 9000#32) (image k3))) (got (initiator .closeEx .s2 2000#32 9000#32) (image k3))) ∧
    AtReceive (got (initiator .closeEx .s2 2000#32 9000#32) (image k3)) .ciAwaitFin ∧
    recvAnswer (got (initiator .closeEx .s2 2000#32 9000#32) (image k3)) = .bytes (image k3) ∧
    after (step (advancing (got (initiator .closeEx .s2 2000#32 9000#32) (image k3)))) (fun t => t.seg == k3 && t.peerSeq == 9000#32 && t.stepIx == .s3 && t.status.run == .busy && t.err == ErrReg.zero) = true :=
  ⟨turns rfl, ⟨by decide, by decide⟩, by decide, by decide⟩

/-- spec/60 rule R182, on K1 with another checksum. -/
theorem witness_CloseResponderAwaitsFin_checksum :
    (OwnTurn (got (responder .closeEx .s0 0#32 0#32) (image ⟨40000#16, 8080#16, 2000#32, 0#32, 0x6001#16, 0#16, 0xDC5E#16, 0#16, 0#32⟩)) (got (responder .closeEx .s0 0#32 0#32) (image ⟨40000#16, 8080#16, 2000#32, 0#32, 0x6001#16, 0#16, 0xDC5E#16, 0#16, 0#32⟩)) ∧ OwnTurn (advancing (got (responder .closeEx .s0 0#32 0#32) (image ⟨40000#16, 8080#16, 2000#32, 0#32, 0x6001#16, 0#16, 0xDC5E#16, 0#16, 0#32⟩))) (got (responder .closeEx .s0 0#32 0#32) (image ⟨40000#16, 8080#16, 2000#32, 0#32, 0x6001#16, 0#16, 0xDC5E#16, 0#16, 0#32⟩))) ∧
    AtReceive (got (responder .closeEx .s0 0#32 0#32) (image ⟨40000#16, 8080#16, 2000#32, 0#32, 0x6001#16, 0#16, 0xDC5E#16, 0#16, 0#32⟩)) .crAwaitFin ∧
    recvAnswer (got (responder .closeEx .s0 0#32 0#32) (image ⟨40000#16, 8080#16, 2000#32, 0#32, 0x6001#16, 0#16, 0xDC5E#16, 0#16, 0#32⟩)) = .bytes (image ⟨40000#16, 8080#16, 2000#32, 0#32, 0x6001#16, 0#16, 0xDC5E#16, 0#16, 0#32⟩) ∧
    after (step (advancing (got (responder .closeEx .s0 0#32 0#32) (image ⟨40000#16, 8080#16, 2000#32, 0#32, 0x6001#16, 0#16, 0xDC5E#16, 0#16, 0#32⟩)))) (fun t => t.seg == ⟨40000#16, 8080#16, 2000#32, 0#32, 0x6001#16, 0#16, 0xDC5E#16, 0#16, 0#32⟩ && t.err == checkErr (responder .closeEx .s0 0#32 0#32) .checksumMismatch .fin 0xDC5D#32 0xDC5E#32) = true :=
  ⟨turns rfl, ⟨by decide, by decide⟩, by decide, by decide⟩

/-- spec/95 V72. -/
theorem witness_CloseResponderAwaitsFin_ack :
    (OwnTurn (got (responder .closeEx .s0 0#32 0#32) (image ⟨40000#16, 8080#16, 2000#32, 1#32, 0x6001#16, 0#16, 0xDC5C#16, 0#16, 0#32⟩)) (got (responder .closeEx .s0 0#32 0#32) (image ⟨40000#16, 8080#16, 2000#32, 1#32, 0x6001#16, 0#16, 0xDC5C#16, 0#16, 0#32⟩)) ∧ OwnTurn (advancing (got (responder .closeEx .s0 0#32 0#32) (image ⟨40000#16, 8080#16, 2000#32, 1#32, 0x6001#16, 0#16, 0xDC5C#16, 0#16, 0#32⟩))) (got (responder .closeEx .s0 0#32 0#32) (image ⟨40000#16, 8080#16, 2000#32, 1#32, 0x6001#16, 0#16, 0xDC5C#16, 0#16, 0#32⟩))) ∧
    AtReceive (got (responder .closeEx .s0 0#32 0#32) (image ⟨40000#16, 8080#16, 2000#32, 1#32, 0x6001#16, 0#16, 0xDC5C#16, 0#16, 0#32⟩)) .crAwaitFin ∧
    recvAnswer (got (responder .closeEx .s0 0#32 0#32) (image ⟨40000#16, 8080#16, 2000#32, 1#32, 0x6001#16, 0#16, 0xDC5C#16, 0#16, 0#32⟩)) = .bytes (image ⟨40000#16, 8080#16, 2000#32, 1#32, 0x6001#16, 0#16, 0xDC5C#16, 0#16, 0#32⟩) ∧
    after (step (advancing (got (responder .closeEx .s0 0#32 0#32) (image ⟨40000#16, 8080#16, 2000#32, 1#32, 0x6001#16, 0#16, 0xDC5C#16, 0#16, 0#32⟩)))) (fun t => t.seg == ⟨40000#16, 8080#16, 2000#32, 1#32, 0x6001#16, 0#16, 0xDC5C#16, 0#16, 0#32⟩ && t.err == checkErr (responder .closeEx .s0 0#32 0#32) .acknowledgmentMismatch .fin 0#32 1#32) = true :=
  ⟨turns rfl, ⟨by decide, by decide⟩, by decide, by decide⟩

/-- spec/95 V74. -/
theorem witness_CloseResponderAwaitsFin_flag :
    (OwnTurn (got (responder .closeEx .s0 0#32 0#32) (image o1)) (got (responder .closeEx .s0 0#32 0#32) (image o1)) ∧ OwnTurn (advancing (got (responder .closeEx .s0 0#32 0#32) (image o1))) (got (responder .closeEx .s0 0#32 0#32) (image o1))) ∧
    AtReceive (got (responder .closeEx .s0 0#32 0#32) (image o1)) .crAwaitFin ∧
    recvAnswer (got (responder .closeEx .s0 0#32 0#32) (image o1)) = .bytes (image o1) ∧
    after (step (advancing (got (responder .closeEx .s0 0#32 0#32) (image o1)))) (fun t => t.seg == o1 && t.err == checkErr (responder .closeEx .s0 0#32 0#32) .flagMismatch .fin 0x01#32 0x02#32) = true :=
  ⟨turns rfl, ⟨by decide, by decide⟩, by decide, by decide⟩

/-- spec/95 V71. -/
theorem witness_CloseResponderAwaitsFin_passes :
    (OwnTurn (got (responder .closeEx .s0 0#32 0#32) (image k1)) (got (responder .closeEx .s0 0#32 0#32) (image k1)) ∧ OwnTurn (advancing (got (responder .closeEx .s0 0#32 0#32) (image k1))) (got (responder .closeEx .s0 0#32 0#32) (image k1))) ∧
    AtReceive (got (responder .closeEx .s0 0#32 0#32) (image k1)) .crAwaitFin ∧
    recvAnswer (got (responder .closeEx .s0 0#32 0#32) (image k1)) = .bytes (image k1) ∧
    after (step (advancing (got (responder .closeEx .s0 0#32 0#32) (image k1)))) (fun t => t.seg == k1 && t.peerSeq == 2000#32 && t.stepIx == .s1 && t.status.run == .busy && t.err == ErrReg.zero) = true :=
  ⟨turns rfl, ⟨by decide, by decide⟩, by decide, by decide⟩

/-- spec/95 V80, V81, V82: no bytes, ten bytes and an error on a `down` direction; V83: 25 bytes. The three clauses of
`ShortReceive`, which every receive statement has. -/
theorem witness_shortReceive :
    AtReceive (choosing (responder .openEx .s0 0#32 0#32) .regular) .orAwaitRequest ∧
    recvAnswer (choosing (responder .openEx .s0 0#32 0#32) .regular) = .bytes [] ∧
    recvAnswer (choosing (got (responder .openEx .s0 0#32 0#32) (o1Bytes.take 10)) .regular) = .bytes (o1Bytes.take 10) ∧
    recvAnswer (choosing (got (responder .openEx .s0 0#32 0#32) (o1Bytes.take 10)) (.error 10)) = .error ∧
    recvAnswer (choosing (got (responder .openEx .s0 0#32 0#32) (o1Bytes ++ [1])) (.count 25)) = .bytes (o1Bytes ++ [1]) :=
  ⟨⟨by decide, by decide⟩, by decide, by decide, by decide, by decide⟩

/-- spec/95 P5: the peer disconnects. -/
theorem test_disconnect :
    after (step (choosing (responder .openEx .s0 0#32 0#32) .regular)) (fun t =>
      t.err == ⟨.shortIo, .openEx, .responder, .s0, .fin, .recv, false, true, false, 24#32, 0#32⟩ && t.seg == Segment.zero &&
        t.env.trace == []) = true := by decide

/-- spec/95 V81. -/
theorem test_short_receive :
    after (step (choosing (got (responder .openEx .s0 0#32 0#32) (o1Bytes.take 10)) .regular)) (fun t =>
      t.err == ⟨.shortIo, .openEx, .responder, .s0, .fin, .recv, false, false, false, 24#32, 10#32⟩) = true := by decide

/-- spec/95 V82. -/
theorem test_error_receive :
    after (step (choosing (got (responder .openEx .s0 0#32 0#32) (o1Bytes.take 10)) (.error 10))) (fun t =>
      t.err == ⟨.shortIo, .openEx, .responder, .s0, .fin, .recv, true, false, false, 24#32, 0#32⟩) = true := by decide

/-- spec/95 V83. -/
theorem test_long_receive :
    after (step (choosing (got (responder .openEx .s0 0#32 0#32) (o1Bytes ++ [1])) (.count 25))) (fun t =>
      t.err == ⟨.shortIo, .openEx, .responder, .s0, .fin, .recv, false, false, false, 24#32, 25#32⟩) = true := by decide

/-- spec/20 R61 with spec/92 D26: every byte an over-long receive returned is consumed; no draw is made. -/
theorem test_long_receive_consumes :
    after (step (choosing (got (responder .openEx .s0 0#32 0#32) (o1Bytes ++ [1, 2])) (.count 25))) (fun t =>
      t.env.rxq == [2] && t.env.draws == [5000#32]) = true := by decide

/-- spec/20 R61: what is left stays for later. -/
theorem test_receive_leaves_the_rest :
    after (step (got (responder .openEx .s0 0#32 0#32) (o1Bytes ++ o2Bytes))) (fun t => t.env.rxq == o2Bytes && t.peerSeq == 1000#32) =
      true := by decide

/-! ### Witnesses for the other statements that have hypotheses -/

/-- The Initiator that was just entered meets the invariant. -/
theorem inv_opened : Inv (initiator .openEx .s0 0#32 0#32) := by constructor <;> decide

/-- The close Responder that has just sent its acknowledgment meets it, its template in `SEG`. -/
theorem inv_template : Inv { responder .closeEx .s2 9000#32 2000#32 with seg := k2 } := by constructor <;> decide

/-- A failed instance meets it. -/
theorem inv_failed : Inv { responder .openEx .s0 0#32 0#32 with
    status := ⟨.failed, false⟩, err := ⟨.flagMismatch, .openEx, .responder, .s0, .syn, .send, false, false, false, 2#32, 1#32⟩ } := by
  constructor <;> decide

theorem witness_ResetZeroesEveryRegister :
    { initiator .closeEx .s1 7#32 9#32 with env := { Env.initial with inputs := [.reset, .advance] } }.env.inputs = .reset :: [.advance] :=
  rfl

theorem witness_EveryStepKeepsInvariant :
    Inv (initiator .openEx .s0 0#32 0#32) ∧ ∃ t, step (initiator .openEx .s0 0#32 0#32) = .next t :=
  ⟨inv_opened, _, step_own (e := .oiSendRequest) rfl (by decide)⟩

theorem witness_StepFromInvariantNeverStops : Inv { responder .closeEx .s2 9000#32 2000#32 with seg := k2 } := inv_template

/-- Both clauses, the first at the operation codes 0 and 13. -/
theorem witness_DecodedWordKeepsItsBits :
    decode (.cmd 0x00#8 0xFFFF#16 1#16) = .ok (.create 0xFFFF#16 1#16) ∧ cmdOpc 0x00#8 = 0 ∧
      decode (.cmd 0xD1#8 1#16 2#16) = .ok (.closeR 1#16 2#16) ∧ cmdOpc 0xD1#8 = 13 ∧ decode (.ctrl 0x6001#16) = .ok .segFin := by decide

theorem witness_StepRunsTheDecodedCommand :
    (pending (.command 0x11#8 0#16 0#16)).env.inputs = .command 0x11#8 0#16 0#16 :: [] ∧
      decode (.cmd 0x11#8 0#16 0#16) = .ok (.setFlag .syn) := ⟨rfl, by decide⟩

/-- A send step and a receive step. -/
theorem witness_StepRunsTheWiredStep :
    (OwnTurn (responder .closeEx .s2 0#32 0#32) (responder .closeEx .s2 0#32 0#32) ∧
      OwnTurn (advancing (responder .closeEx .s2 0#32 0#32)) (responder .closeEx .s2 0#32 0#32)) ∧
      activeStep (responder .closeEx .s2 0#32 0#32) = some .crSendFin ∧ builtControl .crSendFin = some 0x6001#16 ∧
      OwnTurn (advancing (responder .closeEx .s0 0#32 0#32)) (responder .closeEx .s0 0#32 0#32) ∧
      activeStep (responder .closeEx .s0 0#32 0#32) = some .crAwaitFin ∧ builtControl .crAwaitFin = none :=
  ⟨turns rfl, by decide, rfl, turn_advance rfl, by decide, rfl⟩

/-- The three clauses. -/
theorem witness_RefusedCommandChangesOnlyCmdErr :
    decode (.cmd 0xFF#8 0#16 0#16) = .rejected .reservedOpcode ∧ isCommand .verify = true ∧
      (initiator .openEx .s1 0#32 0#32).status.run = .busy ∧ State.reset.status.run ≠ .busy := by decide

theorem witness_CreateBuildsAFreshSegment : (withSeg o2).status.run ≠ .busy := by decide

theorem witness_CheckFlagReadsExactlyOneBit : (withSeg o2).status.run ≠ .busy := by decide

theorem witness_GetOffReadsTheTopFourBits : (withSeg o2).status.run ≠ .busy := by decide

theorem witness_PackStoresTheLittleEndianImage : (withSeg o2).status.run ≠ .busy := by decide

theorem witness_UnpackLoadsTheLittleEndianFields : (withSeg o2).status.run ≠ .busy := by decide

theorem witness_ReportEmitsOneRecord : (withSeg o2).status.run ≠ .busy := by decide

theorem witness_ChecksumCommandLeavesTheChecksumInRes : (withSeg o2).status.run ≠ .busy := by decide

theorem witness_OpenEntryStartsTheExchange : (withSeg o2).status.run ≠ .busy := by decide

theorem witness_CloseEntryStartsTheExchange : (withSeg o2).status.run ≠ .busy := by decide

theorem witness_GetRsvReadsTheSixReservedBits :
    builtControl .orSendGrant = some 0x6012#16 ∧ (withSeg o2).status.run ≠ .busy := by decide

theorem witness_StampWritesTheChecksum :
    o2.ctrl ≠ 0#16 ∧ builtControl .crSendFin = some 0x6001#16 ∧ (withSeg o2).status.run ≠ .busy := by decide

/-- `CREATE` and `REPORT` where they are accepted, and a third operation while `BUSY`. -/
theorem witness_CodecOperationsTouchNothingElse :
    isCodec (.create 1#16 2#16) = true ∧ isCodec .report = true ∧ isCodec .pack = true ∧ (withSeg o2).status.run ≠ .busy ∧
      after (exec (.create 1#16 2#16) (withSeg o2)) (fun _ => true) = true ∧ after (exec .report (withSeg o2)) (fun _ => true) = true ∧
      after (exec .pack (initiator .openEx .s1 0#32 0#32)) (fun _ => true) = true := by decide

/-- The three hypotheses, the operand at its boundary values. -/
theorem witness_SetFlagSetsExactlyOneBit :
    verify o1 = true ∧ flagSet o1 .ack = false ∧ cmdOpc 0x16#8 = 1 ∧ 6 ≤ cmdOpd 0x16#8 ∧ cmdOpc 0x1F#8 = 1 ∧ 6 ≤ cmdOpd 0x1F#8 ∧ (withSeg o2).status.run ≠ .busy := by decide

theorem witness_ClearFlagClearsExactlyOneBit : flagSet o2 .urg = false ∧ (withSeg o2).status.run ≠ .busy := by decide

theorem witness_CodecIsABijection : Memory.wf (Memory.ofBytes o2Bytes) = true ∧ o2Bytes.length = 24 := by decide

theorem witness_FlagLawsOfTheCodec : FlagId.fin ≠ FlagId.urg := by decide

/-- A sum above 0, a sum of 0, and a sum that is a positive multiple of 0xFFFF (spec/95 V31). -/
theorem witness_ChecksumRangeOfResults :
    (checksumWords o1).sum ≠ 0 ∧ (checksumWords Segment.zero).sum = 0 ∧ checksum Segment.zero = 0xFFFF#16 ∧
      checksum ⟨0xFFFF#16, 0xFFFF#16, 0xFFFFFFFF#32, 0xFFFFFFFF#32, 0xFFFF#16, 0xFFFF#16, 0xFFFF#16, 0xFFFF#16, 0xFFFFFFFF#32⟩ = 0#16 := by
  decide

theorem witness_AccumulatorAndFoldBounds : (0xFFFFFFFF : Nat) < 2 ^ 32 ∧ fold 0xFFFFFFFF = 0x1FFFE := by decide

/-- spec/95 V42, V43: all the summed words 0. -/
theorem witness_VerifyComparesTheChecksumField :
    (∀ w ∈ checksumWords { Segment.zero with csum := 0xFFFF#16 }, w = 0) ∧ verify { Segment.zero with csum := 0xFFFF#16 } = true ∧
      verify Segment.zero = false ∧ (withSeg o1).status.run ≠ .busy := by decide

/-- The first byte, a checksum byte and the last byte. -/
theorem witness_OneChangedByteIsDetected :
    0x41#8 ≠ Memory.read (pack .le (stamp o1)) 0 ∧ 0x45#8 ≠ Memory.read (pack .le (stamp o1)) 16 ∧
      1#8 ≠ Memory.read (pack .be (stamp o1)) 23 := by decide

/-- spec/95 V36, the first clause with a non-zero and with an all-zero segment. -/
theorem witness_WholeWordChangeIsABlindSpot :
    (checksumWords { o2 with urg := 0xFFFF#16 }).sum = (checksumWords o2).sum + 0xFFFF ∧
      (checksumWords { Segment.zero with urg := 0xFFFF#16 }).sum = (checksumWords Segment.zero).sum + 0xFFFF ∧
      o2.urg = 0#16 ∧ verify o2 = true ∧ (∃ w ∈ checksumWords o2, w ≠ 0) := by decide

theorem witness_OpenRequestIsBuiltAndSent :
    AtSend (initiator .openEx .s0 0#32 0#32) .oiSendRequest :=
  ⟨by decide, by decide⟩

theorem witness_OpenGrantIsBuiltAndSent :
    AtSend (responder .openEx .s1 0#32 1000#32) .orSendGrant :=
  ⟨by decide, by decide⟩

theorem witness_AcknowledgmentsAreBuiltAndSent :
    AtSend (initiator .openEx .s2 1000#32 5000#32) .oiSendAck ∧
      AtSend (initiator .closeEx .s3 2000#32 9000#32) .ciSendAck2 ∧
      AtSend (responder .closeEx .s1 0#32 2000#32) .crSendAck :=
  ⟨⟨by decide, by decide⟩, ⟨by decide, by decide⟩, ⟨by decide, by decide⟩⟩

theorem witness_CloseRequestsAreBuiltAndSent :
    AtSend (initiator .closeEx .s0 0#32 0#32) .ciSendFin ∧
      AtSend (responder .closeEx .s2 9000#32 2000#32) .crSendFin :=
  ⟨⟨by decide, by decide⟩, ⟨by decide, by decide⟩⟩

/-- The three clauses of `SendOutcome`, which every send statement has. -/
theorem witness_sendOutcome :
    sendAnswer (sendChoice (initiator .openEx .s2 0#32 0#32)) = .count 24 ∧
      sendAnswer (sendChoice (sending (initiator .openEx .s2 0#32 0#32) (.error 3))) = .error ∧
      sendAnswer (sendChoice (sending (initiator .openEx .s2 0#32 0#32) (.count 0 0))) = .count 0 := by decide

theorem witness_SegmentKindElsewhereIsRefused :
    encode .segSyn = .ctrl 0x6002#16 ∧ ∀ e, activeStep State.reset = some e → builtControl e ≠ some 0x6002#16 :=
  ⟨rfl, fun e h => absurd h (by cases e <;> decide)⟩

theorem witness_EverySentSegmentIsWellBuilt :
    Inv { responder .closeEx .s2 9000#32 2000#32 with seg := k2 } ∧
      OwnTurn { responder .closeEx .s2 9000#32 2000#32 with seg := k2 } { responder .closeEx .s2 9000#32 2000#32 with seg := k2 } ∧
      AtSend { responder .closeEx .s2 9000#32 2000#32 with seg := k2 } .crSendFin ∧
      builtControl .crSendFin = some 0x6001#16 ∧
      ∃ t, step { responder .closeEx .s2 9000#32 2000#32 with seg := k2 } = .next t :=
  ⟨inv_template, turn_here rfl, ⟨by decide, by decide⟩, rfl, _, step_own (e := .crSendFin) rfl (by decide)⟩

/-- A receive with 23 bytes waiting, and a send on a stalled direction. -/
theorem witness_BlockedStepChangesNothing :
    OwnTurn (advancing (got (responder .openEx .s0 0#32 0#32) (o1Bytes.take 23))) (got (responder .openEx .s0 0#32 0#32) (o1Bytes.take 23)) ∧
      activeStep (got (responder .openEx .s0 0#32 0#32) (o1Bytes.take 23)) = some .orAwaitRequest ∧
      builtControl .orAwaitRequest = none ∧ (got (responder .openEx .s0 0#32 0#32) (o1Bytes.take 23)).env.rxq.length < 24 ∧
      (got (responder .openEx .s0 0#32 0#32) (o1Bytes.take 23)).env.rxDown = false ∧
      OwnTurn (stalled (initiator .openEx .s0 0#32 0#32)) (stalled (initiator .openEx .s0 0#32 0#32)) ∧
      activeStep (stalled (initiator .openEx .s0 0#32 0#32)) = some .oiSendRequest ∧ builtControl .oiSendRequest = some 0x6002#16 ∧
      encode .segSyn = .ctrl 0x6002#16 ∧ (stalled (initiator .openEx .s0 0#32 0#32)).env.txStalled = true ∧
      (stalled (initiator .openEx .s0 0#32 0#32)).env.txDown = false :=
  ⟨turn_advance rfl, by decide, rfl, by decide, rfl, turn_here rfl, by decide, rfl, rfl, rfl, rfl⟩

/-- spec/70 R225: the send waits with nothing drawn, then goes out once the direction takes bytes again; and it does not wait on a
direction that is `down`. -/
theorem test_blocked_send :
    after (step (stalled (initiator .openEx .s0 0#32 0#32))) (fun t => t == stalled (initiator .openEx .s0 0#32 0#32)) = true ∧
      after (step { stalled (initiator .openEx .s0 0#32 0#32) with
        env := { (stalled (initiator .openEx .s0 0#32 0#32)).env with inputs := [.txResume] } }) (fun t =>
          t == initiator .openEx .s0 0#32 0#32) = true ∧
      sendBlocked { initiator .openEx .s0 0#32 0#32 with
        env := { (stalled (initiator .openEx .s0 0#32 0#32)).env with txDown := true } } = false := by decide

theorem witness_ReceiveTakesTheFirstSegment :
    24 ≤ (got (responder .openEx .s0 0#32 0#32) (o1Bytes ++ o2Bytes)).env.rxq.length ∧
      (got (responder .openEx .s0 0#32 0#32) (o1Bytes ++ o2Bytes)).env.recvChoices = [] := by decide

/-- A step that fails, and a command. -/
theorem witness_StepsRaiseOnlyTheirKinds :
    OwnTurn (got (responder .openEx .s0 0#32 0#32) (image k1)) (got (responder .openEx .s0 0#32 0#32) (image k1)) ∧
      activeStep (got (responder .openEx .s0 0#32 0#32) (image k1)) = some .orAwaitRequest ∧
      after (step (got (responder .openEx .s0 0#32 0#32) (image k1))) (fun t => t.status.run == .failed) = true ∧
      isCommand .verify = true ∧ ∃ t, exec .verify State.reset = .next t :=
  ⟨turn_here rfl, by decide, by decide, rfl, _, exec_verify (by decide)⟩

/-- A step that ends the exchange; and one that leaves the state alone, of a blocked and of an idle instance. -/
theorem witness_ControlTransferIsForwardOnly :
    (OwnTurn (initiator .openEx .s2 1000#32 5000#32) (initiator .openEx .s2 1000#32 5000#32) ∧
      ∃ t, step (initiator .openEx .s2 1000#32 5000#32) = .next t) ∧
      HasNoStep (responder .openEx .s0 0#32 0#32) ∧ HasNoStep State.reset :=
  ⟨⟨turn_here rfl, _, step_own (e := .oiSendAck) rfl (by decide)⟩, .inr ⟨.orAwaitRequest, by decide, by decide⟩, .inl (by decide)⟩

/-- Both clauses, the second at the first and the last offset. -/
theorem witness_HostWritesOnlyWhileNotBusy :
    (pending (.writeSeg o1)).env.inputs = .writeSeg o1 :: [] ∧ Memory.wf (pending (.writeBuf 0 1#8)).buf = true ∧
      (pending (.writeBuf 0 1#8)).env.inputs = .writeBuf 0 1#8 :: [] ∧
      (pending (.writeBuf 23 1#8)).env.inputs = .writeBuf 23 1#8 :: [] := ⟨rfl, rfl, rfl, rfl⟩

theorem witness_IdleBlockDoesNothing : OwnTurn (advancing State.reset) State.reset ∧ State.reset.status.run ≠ .busy := ⟨turn_advance rfl, by decide⟩

/-- Both ways out: reset of a close Initiator, and `CLOSE.R` on the reset state. -/
theorem witness_SetupIsWrittenOnlyByEntry :
    after (step { initiator .closeEx .s1 7#32 9#32 with env := { Env.initial with inputs := [.reset] } }) (fun t => t.op == .openEx) = true ∧
      after (step (pending (.command 0xD1#8 8080#16 40000#16))) (fun t => t.op == .closeEx && t.role == .responder) = true := by decide

/-- The first clause with O1; the second with K1, whose SYN is missing, at `OR.AwaitRequest`; the
third with O1 that also carries ACK and FIN, restamped, at `OR.AwaitRequest`, and with O2 that also carries FIN, not restamped,
at `OI.AwaitGrant`, where the checksum comes later (spec/60 R195). -/
theorem witness_StrictVariantDiffersOnlyOnExtraFlags :
    (AtReceive (got (responder .openEx .s0 0#32 0#32) o1Bytes) .orAwaitRequest ∧
      recvAnswer (got (responder .openEx .s0 0#32 0#32) o1Bytes) = .bytes o1Bytes ∧ o1Bytes.length = 24 ∧
      ([FlagId.fin, .syn, .rst, .psh, .ack, .urg].all fun f =>
        !flagSet (unpack .le (Memory.ofBytes o1Bytes)) f || (0x02#6).getLsbD f.pos) = true) ∧
    (receiveStep decided .orAwaitRequest (got (responder .openEx .s0 0#32 0#32) (image k1))).status.run = .failed ∧
    (receiveStep decided .orAwaitRequest
      (got (responder .openEx .s0 0#32 0#32) (image { o1 with ctrl := 0x6013#16, csum := 0xE033#16 }))).status.run = .busy ∧
    flagSet (unpack .le (Memory.ofBytes (image { o1 with ctrl := 0x6013#16, csum := 0xE033#16 }))) .fin = true ∧
    (0x02#6).getLsbD FlagId.fin.pos = false ∧
    (receiveStep decided .oiAwaitGrant (got (initiator .openEx .s1 1000#32 0#32) (image { o2 with ctrl := 0x6013#16 }))).err.kind =
      .checksumMismatch ∧
    flagSet (unpack .le (Memory.ofBytes (image { o2 with ctrl := 0x6013#16 }))) .fin = true ∧ (0x12#6).getLsbD FlagId.fin.pos = false :=
  ⟨⟨⟨by decide, by decide⟩, by decide, by decide, by decide⟩, by decide, by decide, by decide, by decide, by decide, by decide, by decide⟩

/-- Every event, and a direction that is `down`. -/
theorem witness_ChannelEventsTouchOnlyTheChannel :
    (pending (.arrive [1, 2])).env.inputs = .arrive [1, 2] :: [] ∧ (pending (.collect 3)).env.inputs = .collect 3 :: [] ∧
      (pending .rxDown).env.inputs = .rxDown :: [] ∧ (pending .txDown).env.inputs = .txDown :: [] ∧
      (pending .txStall).env.inputs = .txStall :: [] ∧ (pending .txResume).env.inputs = .txResume :: [] ∧
      (∃ t, step (choosing (initiator .openEx .s0 0#32 0#32) .regular) = .next t) ∧
      (choosing (initiator .openEx .s0 0#32 0#32) .regular).env.rxDown = true :=
  ⟨rfl, rfl, rfl, rfl, rfl, rfl, ⟨_, step_own (e := .oiSendRequest) rfl (by decide)⟩, rfl⟩

theorem quiet_reset : Quiet State.reset := ⟨rfl, rfl, rfl, rfl, rfl, rfl, rfl, rfl⟩

theorem witness_OpenExchangeCompletes :
    Quiet (drawing 1000#32) ∧ Quiet State.reset ∧ (drawing 1000#32).status.run ≠ .busy ∧
      (∃ t, exec (.openI 40000#16 8080#16) (drawing 1000#32) = .next t) ∧ ∃ t, exec (.openR 8080#16 40000#16) State.reset = .next t :=
  ⟨⟨rfl, rfl, rfl, rfl, rfl, rfl, rfl, rfl⟩, quiet_reset, by decide, ⟨_, exec_openI _ _ (by decide)⟩, _, exec_openR _ _ (by decide)⟩

theorem witness_OpenExchangeFailsUnderNoSchedule :
    Quiet State.reset ∧ State.reset.status.run ≠ .busy ∧ (∃ t, exec (.openI 1#16 2#16) State.reset = .next t) ∧
      ∃ t, exec (.openR 2#16 1#16) State.reset = .next t :=
  ⟨quiet_reset, by decide, ⟨_, exec_openI _ _ (by decide)⟩, _, exec_openR _ _ (by decide)⟩

theorem witness_CloseExchangeCompletes :
    Quiet State.reset ∧ State.reset.status.run ≠ .busy ∧ (∃ t, exec (.closeI 1#16 2#16) State.reset = .next t) ∧
      ∃ t, exec (.closeR 2#16 1#16) State.reset = .next t :=
  ⟨quiet_reset, by decide, ⟨_, exec_closeI _ _ (by decide)⟩, _, exec_closeR _ _ (by decide)⟩

theorem witness_TwoOpenInitiatorsBothFail :
    Quiet State.reset ∧ State.reset.status.run ≠ .busy ∧ (∃ t, exec (.openI 1#16 2#16) State.reset = .next t) ∧
      ∃ t, exec (.openI 2#16 1#16) State.reset = .next t :=
  ⟨quiet_reset, by decide, ⟨_, exec_openI _ _ (by decide)⟩, _, exec_openI _ _ (by decide)⟩

end Sys2Proof.Tests
end

section
/-! PROOFS. What one step of the whole machine can do, said once: `StepEffect` lists the ways in which a step answers a next
state, and `step_cases` says that there is no other answer but the fault of a sequence that names no step. -/

namespace Sys2Proof.Machine

/-- The state with the events still to come replaced. -/
abbrev withInputs (s : State) (is : List Input) : State := { s with env := { s.env with inputs := is } }

/-! ### From what is fetched to the step -/

theorem step_of_plain {s t : State} (hf : fetch s = .plain t) : step s = .next t := by
  simp only [step, hf]

theorem step_of_stuck {s : State} (hf : fetch s = .stuck) : step s = .fault .noStepRule := by
  simp only [step, hf]

theorem step_of_word {s x : State} {e : Encoded} {i : Instr} (hf : fetch s = .word e x) (hd : decode e = .ok i) :
    step s = exec i x := by
  simp only [step, hf, hd]

theorem step_of_illegal {s x : State} {w : Byte} {a b : Half} {r : Reject} (hf : fetch s = .word (.cmd w a b) x)
    (hd : decode (.cmd w a b) = .rejected r) : step s = .next (refuseCommand x) := by
  simp only [step, hf, hd, onRejectedWord]

/-- A step of the block itself fetches from the state it is taken at. -/
theorem fetch_turn {s x : State} (ht : OwnTurn s x) : fetch s = fetchOwn x := by
  rcases ht with ⟨hi, rfl⟩ | ⟨rest, hi, rfl⟩
  · exact fetch_free hi
  · rw [fetch_input hi]
    rfl

/-- The control word of a send step stands for a segment kind (spec/30 R87). -/
theorem decode_builtControl {e : ExStep} {w : Half} (h : builtControl e = some w) : ∃ i, decode (.ctrl w) = .ok i := by
  cases e <;> cases h
  case oiSendRequest => exact ⟨.segSyn, by decide⟩
  case orSendGrant => exact ⟨.segSynAck, by decide⟩
  case oiSendAck | ciSendAck2 | crSendAck => exact ⟨.segAck, by decide⟩
  case ciSendFin | crSendFin => exact ⟨.segFin, by decide⟩

/-! ### What a command does -/

/-- The twelve unit operations: the commands that enter no exchange (spec/30 R93). -/
def isUnitOperation : Instr → Bool
  | .openI _ _ | .openR _ _ | .closeI _ _ | .closeR _ _ => false
  | .segSyn | .segSynAck | .segAck | .segFin => false
  | _ => true

theorem isCommand_of_unitOperation {i : Instr} (h : isUnitOperation i = true) : isCommand i = true := by
  cases i
  case openI | openR | closeI | closeR | segSyn | segSynAck | segAck | segFin => cases h
  all_goals rfl

theorem withZero_ok {opd : Nat} {i j : Instr} (h : withZero opd i = .ok j) : j = i := by
  unfold withZero at h
  split at h <;> cases h
  rfl

theorem withFlag_ok {opd : Nat} {k : FlagId → Instr} {j : Instr} (h : withFlag opd k = .ok j) : ∃ f, j = k f := by
  unfold withFlag at h
  split at h <;> cases h
  exact ⟨_, rfl⟩

theorem withRole_ok {opd : Nat} {i r j : Instr} (h : withRole opd i r = .ok j) : j = i ∨ j = r := by
  unfold withRole at h
  split at h <;> cases h
  · exact .inl rfl
  · exact .inr rfl

/-- A command word stands for a unit operation, or for an entry whose ports are the data operands (spec/30 R93, R94). -/
theorem decode_command_ok {w : Byte} {a b : Half} {i : Instr} (h : decode (.cmd w a b) = .ok i) :
    isUnitOperation i = true ∨ (cmdOpc w = 12 ∧ (i = .openI a b ∨ i = .openR a b)) ∨
      (cmdOpc w = 13 ∧ (i = .closeI a b ∨ i = .closeR a b)) := by
  simp only [decode, decodeCommand] at h
  split at h
  case h_13 hw => exact .inr (.inl ⟨hw, withRole_ok h⟩)
  case h_14 hw => exact .inr (.inr ⟨hw, withRole_ok h⟩)
  case h_15 => cases h
  case h_2 | h_3 | h_4 =>
    obtain ⟨f, rfl⟩ := withFlag_ok h
    exact .inl rfl
  all_goals
    rw [withZero_ok h]
    exact .inl rfl

/-- A command word never stands for a segment kind. -/
theorem decode_command_isCommand {w : Byte} {a b : Half} {i : Instr} (h : decode (.cmd w a b) = .ok i) : isCommand i = true := by
  rcases decode_command_ok h with hu | ⟨-, rfl | rfl⟩ | ⟨-, rfl | rfl⟩
  · exact isCommand_of_unitOperation hu
  all_goals rfl

/-- While an exchange runs, every command is refused (spec/30 R95 (e)). -/
theorem exec_command_refused {i : Instr} {s : State} (hi : isCommand i = true) (hb : s.status.run = .busy) :
    exec i s = .next (refuseCommand s) := by
  cases i
  case segSyn | segSynAck | segAck | segFin => cases hi
  all_goals
    simp only [exec, execCreate, execSetFlag, execClearFlag, execCheckFlag, execGetOff, execGetRsv, execPack, execUnpack, execReport,
      execChecksum, execStamp, execVerify, execOpenI, execOpenR, execCloseI, execCloseR, onCommandPort_refuses _ hb]

/-- What an accepted unit operation, or a host write, leaves alone: the role state, `STATUS.state`, `ERR` and the canonical form of
`BUF` (spec/40 R121; spec/10 R39). -/
structure UnitEffect (s t : State) : Prop where
  exchange : SameExchange s t
  run : t.status.run = s.status.run
  err : t.err = s.err
  buf : Memory.wf s.buf = true → Memory.wf t.buf = true

theorem mapSeg_unitEffect (f : Segment → Segment) (s : State) : UnitEffect s (mapSeg f (acceptCommand s)) := by
  constructor <;> simp [SameExchange]

theorem setRes_unitEffect (v : Word) (s : State) : UnitEffect s (setRes v (acceptCommand s)) := by
  constructor <;> simp [SameExchange]

theorem exec_unitOperation {i : Instr} {s : State} (hi : isUnitOperation i = true) (hn : s.status.run ≠ .busy) :
    ∃ t, exec i s = .next t ∧ UnitEffect s t := by
  cases i
  case openI | openR | closeI | closeR | segSyn | segSynAck | segAck | segFin => cases hi
  case create a b => exact ⟨_, exec_create a b hn, by constructor <;> simp [createSeg, SameExchange]⟩
  case setFlag f => exact ⟨_, exec_setFlag f hn, mapSeg_unitEffect _ s⟩
  case clearFlag f => exact ⟨_, exec_clearFlag f hn, mapSeg_unitEffect _ s⟩
  case checkFlag f => exact ⟨_, exec_checkFlag f hn, setRes_unitEffect _ s⟩
  case getOff => exact ⟨_, exec_getOff hn, setRes_unitEffect _ s⟩
  case getRsv => exact ⟨_, exec_getRsv hn, setRes_unitEffect _ s⟩
  case pack => exact ⟨_, exec_pack hn, by constructor <;> simp [SameExchange, pack_wf]⟩
  case unpack => exact ⟨_, exec_unpack hn, by constructor <;> simp [SameExchange]⟩
  case report => exact ⟨_, exec_report hn, by constructor <;> simp [SameExchange]⟩
  case checksum => exact ⟨_, exec_checksum hn, setRes_unitEffect _ s⟩
  case stamp => exact ⟨_, exec_stamp hn, mapSeg_unitEffect _ s⟩
  case verify => exact ⟨_, exec_verify hn, setRes_unitEffect _ s⟩

/-! ### The host's writes -/

theorem hostWriteSeg_busy (g : Segment) {s : State} (h : s.status.run = .busy) : hostWriteSeg g s = s := by
  simp only [hostWriteSeg, if_pos h]

theorem hostWriteSeg_free (g : Segment) {s : State} (h : s.status.run ≠ .busy) : hostWriteSeg g s = { s with seg := g } := by
  simp only [hostWriteSeg, if_neg h]

theorem hostWriteBuf_busy (k : Nat) (b : Byte) {s : State} (h : s.status.run = .busy) : hostWriteBuf k b s = s := by
  simp only [hostWriteBuf, if_pos h]

theorem hostWriteBuf_free (k : Nat) (b : Byte) {s : State} (h : s.status.run ≠ .busy) :
    hostWriteBuf k b s = { s with buf := Memory.write s.buf k b } := by
  simp only [hostWriteBuf, if_neg h]

/-! ### Every answer of a step -/

/-- The ways in which a step from `s` answers a next state. -/
inductive StepEffect (s : State) : State → Prop
  /-- nothing but the environment changes: an event of the channel, a host write while `BUSY`, a block with no exchange to run -/
  | environment (e : Env) : StepEffect s { s with env := e }
  /-- a command is refused (spec/60 R194) -/
  | refusal (rest : List Input) : StepEffect s (refuseCommand (withInputs s rest))
  /-- a unit operation, or a host write, while no exchange runs -/
  | unit (rest : List Input) {t : State} (hn : s.status.run ≠ .busy) (hu : UnitEffect (withInputs s rest) t) : StepEffect s t
  /-- an accepted `OPEN` or `CLOSE` (spec/42 R140; spec/43 R160) -/
  | entry {w : Byte} {a b : Half} {rest : List Input} (hi : s.env.inputs = .command w a b :: rest)
      (hw : cmdOpc w = 12 ∨ cmdOpc w = 13) (hn : s.status.run ≠ .busy) (o : ExOp) (r : Role) :
      StepEffect s (enterExchange o r a b (acceptCommand (withInputs s rest)))
  /-- the reset input (spec/70 R220) -/
  | reset {rest : List Input} (hi : s.env.inputs = .reset :: rest) : StepEffect s (resetBlock (withInputs s rest))
  /-- the step that the sequence of a running exchange names (spec/10 R26) -/
  | own {x : State} {e : ExStep} (ht : OwnTurn s x) (he : activeStep x = some e) : StepEffect s (ownStep decided e x)

/-- A running exchange stands at no step of its machine, which spec/10 R26 calls not reachable. -/
def AtNoStep (s : State) : Prop := s.status.run = .busy ∧ stepAt s.op s.role s.stepIx = none

/-- A turn of the block is taken with the registers as they are. -/
theorem OwnTurn.registers {s x : State} (ht : OwnTurn s x) : x = { s with env := x.env } := by
  rcases ht with ⟨-, rfl⟩ | ⟨rest, -, rfl⟩ <;> rfl

/-- A command ends in a refusal, in a unit operation or in an entry. -/
theorem command_effect {s : State} {w : Byte} {a b : Half} {rest : List Input} (hi : s.env.inputs = .command w a b :: rest) :
    ∃ t, step s = .next t ∧ StepEffect s t := by
  have hf : fetch s = .word (.cmd w a b) (withInputs s rest) := fetch_input hi
  cases hd : decode (.cmd w a b) with
  | rejected r => exact ⟨_, step_of_illegal hf hd, .refusal rest⟩
  | ok i =>
    have hs := step_of_word hf hd
    by_cases hb : s.status.run = .busy
    · exact ⟨_, hs.trans (exec_command_refused (decode_command_isCommand hd) hb), .refusal rest⟩
    rcases decode_command_ok hd with hu | ⟨hw, rfl | rfl⟩ | ⟨hw, rfl | rfl⟩
    · obtain ⟨t, ht, hu⟩ := exec_unitOperation (s := withInputs s rest) hu hb
      exact ⟨t, hs.trans ht, .unit rest hb hu⟩
    · exact ⟨_, hs.trans (exec_openI a b hb), .entry hi (.inl hw) hb .openEx .initiator⟩
    · exact ⟨_, hs.trans (exec_openR a b hb), .entry hi (.inl hw) hb .openEx .responder⟩
    · exact ⟨_, hs.trans (exec_closeI a b hb), .entry hi (.inr hw) hb .closeEx .initiator⟩
    · exact ⟨_, hs.trans (exec_closeR a b hb), .entry hi (.inr hw) hb .closeEx .responder⟩

/-- A host write of `SEG` sets it while the block is not `BUSY`, and does nothing while it is (spec/10 R39). -/
theorem hostWriteSeg_effect (s : State) (rest : List Input) (g : Segment) : StepEffect s (hostWriteSeg g (withInputs s rest)) := by
  by_cases hb : s.status.run = .busy
  · rw [hostWriteSeg_busy (s := withInputs s rest) g hb]
    exact .environment _
  · rw [hostWriteSeg_free (s := withInputs s rest) g hb]
    exact .unit rest hb ⟨⟨rfl, rfl, rfl, rfl, rfl, rfl, rfl⟩, rfl, rfl, id⟩

/-- A host write of a byte of `BUF` likewise. -/
theorem hostWriteBuf_effect (s : State) (rest : List Input) (k : Fin 24) (b : Byte) :
    StepEffect s (hostWriteBuf k b (withInputs s rest)) := by
  by_cases hb : s.status.run = .busy
  · rw [hostWriteBuf_busy (s := withInputs s rest) k b hb]
    exact .environment _
  · rw [hostWriteBuf_free (s := withInputs s rest) k b hb]
    exact .unit rest hb ⟨⟨rfl, rfl, rfl, rfl, rfl, rfl, rfl⟩, rfl, rfl, fun h => write_wf b h k.isLt⟩

/-- A turn of the block does nothing while no exchange runs, and else is the step the sequence names, if it names one. -/
theorem turn_effect {s x : State} (ht : OwnTurn s x) :
    (AtNoStep s ∧ step s = .fault .noStepRule) ∨ ∃ t, step s = .next t ∧ StepEffect s t := by
  have hf := fetch_turn ht
  have hx := ht.registers
  by_cases hb : x.status.run = .busy
  · cases he : stepAt x.op x.role x.stepIx with
    | none =>
      refine .inl ⟨?_, step_of_stuck (hf.trans (fetchOwn_stuck hb he))⟩
      rw [hx] at hb he
      exact ⟨hb, he⟩
    | some e =>
      have ha : activeStep x = some e := by simp only [activeStep, if_pos hb, he]
      exact .inr ⟨_, step_of_own hf ha, .own ht ha⟩
  · refine .inr ⟨x, step_of_plain (hf.trans (fetchOwn_idle hb)), ?_⟩
    rw [hx]
    exact .environment _

/-- A step answers a next state in one of the ways of `StepEffect`, except where a running exchange stands at no step. -/
theorem step_cases (s : State) :
    (AtNoStep s ∧ step s = .fault .noStepRule) ∨ ∃ t, step s = .next t ∧ StepEffect s t := by
  match hi : s.env.inputs with
  | [] => exact turn_effect (.inl ⟨hi, rfl⟩)
  | .advance :: rest => exact turn_effect (.inr ⟨rest, hi, rfl⟩)
  | .command w a b :: rest => exact .inr (command_effect hi)
  | .writeSeg g :: rest => exact .inr ⟨_, step_of_plain (fetch_input hi), hostWriteSeg_effect s rest g⟩
  | .writeBuf k b :: rest => exact .inr ⟨_, step_of_plain (fetch_input hi), hostWriteBuf_effect s rest k b⟩
  | .reset :: rest => exact .inr ⟨_, step_of_plain (fetch_input hi), .reset hi⟩
  | .arrive bs :: rest => exact .inr ⟨_, step_of_plain (fetch_input hi), .environment _⟩
  | .collect n :: rest => exact .inr ⟨_, step_of_plain (fetch_input hi), .environment _⟩
  | .rxDown :: rest => exact .inr ⟨_, step_of_plain (fetch_input hi), .environment _⟩
  | .txDown :: rest => exact .inr ⟨_, step_of_plain (fetch_input hi), .environment _⟩
  | .txStall :: rest => exact .inr ⟨_, step_of_plain (fetch_input hi), .environment _⟩
  | .txResume :: rest => exact .inr ⟨_, step_of_plain (fetch_input hi), .environment _⟩

/-- A next state comes about in one of the ways of `StepEffect`. -/
theorem stepEffect_of_step {s t : State} (h : step s = .next t) : StepEffect s t := by
  rcases step_cases s with ⟨-, h'⟩ | ⟨t', h', he⟩
  · cases h.symm.trans h'
  · cases h.symm.trans h'
    exact he

end Sys2Proof.Machine
end

section
/-! PROOFS. The invariant: that each effect of a step keeps it. -/

namespace Sys2Proof.Machine

/-- The environment is no part of the invariant. -/
theorem Inv.withEnv {s : State} (h : Inv s) (e : Env) : Inv { s with env := e } :=
  ⟨h.bufCanonical, h.localBelow, h.stepNamed, h.failedIff, h.errBlank, h.errWhere, h.template⟩

theorem inv_withInputs {s : State} (h : Inv s) (is : List Input) : Inv (withInputs s is) := h.withEnv _

theorem Inv.turn {s x : State} (h : Inv s) (ht : OwnTurn s x) : Inv x := by
  rw [ht.registers]
  exact h.withEnv _

/-- A running exchange has no failure recorded. -/
theorem Inv.err_of_busy {s : State} (h : Inv s) (hb : s.status.run = .busy) : s.err = ErrReg.zero := by
  refine h.errBlank (Classical.not_not.mp fun hk => ?_)
  have hf := h.failedIff.mpr hk
  rw [hb] at hf
  cases hf

theorem inv_reset : Inv State.reset := by
  constructor <;> decide

theorem Inv.refuseCommand {s : State} (h : Inv s) : Inv (refuseCommand s) :=
  ⟨h.bufCanonical, h.localBelow, h.stepNamed, h.failedIff, h.errBlank, h.errWhere, h.template⟩

theorem Inv.unitEffect {s t : State} (h : Inv s) (hn : s.status.run ≠ .busy) (hu : UnitEffect s t) : Inv t := by
  obtain ⟨⟨hl, -, hk, ho, hr, -, -⟩, hrun, herr, hbuf⟩ := hu
  have hidle : t.status.run ≠ .busy := hrun ▸ hn
  exact {
    bufCanonical := hbuf h.bufCanonical
    localBelow := hl ▸ h.localBelow
    stepNamed := fun hb => absurd hb hidle
    failedIff := by rw [hrun, herr]; exact h.failedIff
    errBlank := by rw [herr]; exact h.errBlank
    errWhere := by rw [hrun, herr, ho, hr, hk]; exact h.errWhere
    template := fun hb => absurd hb hidle }

/-- A state whose exchange runs with no failure recorded meets the invariant where its step is named and its template is in place. -/
theorem inv_of_busy {s : State} (hbuf : Memory.wf s.buf = true) (hl : s.localSeq.toNat < 0xFFFFFFF0) (hb : s.status.run = .busy)
    (he : s.err = ErrReg.zero) (hn : stepAt s.op s.role s.stepIx ≠ none)
    (ht : s.op = .closeEx → s.role = .responder → s.stepIx = .s2 → s.seg = ackTemplate s) : Inv s where
  bufCanonical := hbuf
  localBelow := hl
  stepNamed := fun _ => hn
  failedIff := by simp [hb, he, ErrReg.zero]
  errBlank := fun _ => he
  errWhere := fun hf => by simp [hb] at hf
  template := fun _ => ht

/-- Every machine has a first step (spec/10 R26). -/
theorem stepAt_first (o : ExOp) (r : Role) : stepAt o r .s0 ≠ none := by
  cases o <;> cases r <;> decide

theorem inv_enterExchange {s : State} (hbuf : Memory.wf s.buf = true) (o : ExOp) (r : Role) (a b : Half) :
    Inv (enterExchange o r a b s) :=
  inv_of_busy hbuf (Nat.zero_lt_succ _) rfl rfl (stepAt_first o r) (fun _ _ hk => by cases hk)

theorem inv_raise {y : State} {k : ErrKind} (i : RaiseInfo) (hk : k ≠ .none) (hbuf : Memory.wf y.buf = true)
    (hl : y.localSeq.toNat < 0xFFFFFFF0) : Inv (raise k i y) where
  bufCanonical := hbuf
  localBelow := hl
  stepNamed := fun hb => by cases hb
  failedIff := by simp [hk]
  errBlank := fun h => absurd h hk
  errWhere := fun _ => ⟨rfl, rfl, rfl⟩
  template := fun hb => by cases hb

theorem inv_finish {y : State} (hbuf : Memory.wf y.buf = true) (hl : y.localSeq.toNat < 0xFFFFFFF0) (he : y.err = ErrReg.zero) :
    Inv (finish y) where
  bufCanonical := hbuf
  localBelow := hl
  stepNamed := fun hb => by cases hb
  failedIff := by simp [he, ErrReg.zero]
  errBlank := fun _ => he
  errWhere := fun hf => by cases hf
  template := fun hb => by cases hb

/-- The step tables agree: a step that succeeds ends the exchange, or goes on to an index at which its machine has a step; only
`CR.SendAck` goes on to `CR.SendFin` (spec/10 R26). -/
theorem endOf_cases {o : ExOp} {r : Role} {k : StepIx} {e : ExStep} (h : stepAt o r k = some e) :
    endOf e = finish ∨
      ∃ n, endOf e = gotoStep n ∧ stepAt o r n ≠ none ∧ (o = .closeEx → r = .responder → n = .s2 → e = .crSendAck) := by
  cases o <;> cases r <;> cases k <;> cases h
  case openEx.initiator.s2 | openEx.responder.s2 | closeEx.initiator.s3 | closeEx.responder.s3 => exact .inl rfl
  all_goals exact .inr ⟨_, rfl, by decide, by decide⟩

theorem none_not_mem_mayRaise (e : ExStep) : ErrKind.none ∉ mayRaise e := by
  cases e <;> decide

/-- A step of the running exchange keeps the invariant, however it ends. -/
theorem Inv.endsLike {e : ExStep} {s t : State} (h : Inv s) (ha : activeStep s = some e) (ht : EndsLike e s t) : Inv t := by
  obtain ⟨hb, he⟩ := activeStep_eq ha
  obtain ⟨y, hc, hbuf, hl, hend⟩ := ht
  have hlow : y.localSeq.toNat < 0xFFFFFFF0 := hl.elim (fun hl => hl ▸ h.localBelow) id
  have herr : y.err = ErrReg.zero := hc.err.trans (h.err_of_busy hb)
  rcases hend with ⟨rfl, htemplate⟩ | ⟨k, hk, i, rfl⟩
  · rcases endOf_cases he with hd | ⟨n, hd, hn, hlast⟩
    · rw [hd]
      exact inv_finish hbuf hlow herr
    · rw [hd]
      refine inv_of_busy hbuf hlow (hc.status ▸ hb) herr (hc.op ▸ hc.role ▸ hn) fun ho hr hk => ?_
      exact htemplate (hlast (hc.op ▸ ho) (hc.role ▸ hr) hk)
  · exact inv_raise i (fun hz => none_not_mem_mayRaise e (hz ▸ hk)) hbuf hlow

theorem Inv.ownStep {e : ExStep} {s : State} (h : Inv s) (ha : activeStep s = some e) : Inv (ownStep decided e s) := by
  rcases ownStep_cases e s with ⟨-, hs⟩ | ht
  · rwa [hs]
  · exact h.endsLike ha ht

/-- Every effect of a step keeps the invariant. -/
theorem Inv.stepEffect {s t : State} (h : Inv s) (he : StepEffect s t) : Inv t := by
  cases he with
  | environment e => exact h.withEnv e
  | refusal rest => exact (inv_withInputs h rest).refuseCommand
  | unit rest hn hu => exact (inv_withInputs h rest).unitEffect hn hu
  | @entry _ a b rest _ _ _ o r => exact inv_enterExchange (s := acceptCommand (withInputs s rest)) h.bufCanonical o r a b
  | reset _ => exact inv_reset.withEnv _
  | own ht ha => exact (h.turn ht).ownStep ha

/-- Settles O3: a step has one of the effects of `StepEffect`, and each of them keeps the invariant. -/
theorem everyStepKeepsInvariant : Obligations.EveryStepKeepsInvariant :=
  fun _ _ h hs => h.stepEffect (stepEffect_of_step hs)

/-- Settles O4: the one fault of a step needs a running exchange at no step of its machine, which the invariant excludes. -/
theorem stepFromInvariantNeverStops : Obligations.StepFromInvariantNeverStops := by
  unfold Obligations.StepFromInvariantNeverStops
  intro s h
  rcases step_cases s with ⟨⟨hb, hn⟩, -⟩ | ⟨t, ht, -⟩
  · exact absurd hn (h.stepNamed hb)
  · exact ⟨t, ht⟩

/-- Settles O2: each clause is a fact about the one reset state. -/
theorem invariantHoldsAtReset : Obligations.InvariantHoldsAtReset := inv_reset

end Sys2Proof.Machine
end

section
/-! PROOFS. What a step writes of the setup, and the statements about reset, the host's writes and the wired sequence. -/

namespace Sys2Proof.Machine

/-! ### `OP`, `ROLE` and the ports -/

theorem Carries.sameSetup {s y : State} (h : Carries s y) : SameSetup s y := ⟨h.op, h.role, h.localPort, h.peerPort⟩

theorem endOf_sameSetup (e : ExStep) (y : State) : SameSetup y (endOf e y) := by
  cases e <;> exact ⟨rfl, rfl, rfl, rfl⟩

theorem SameSetup.trans {s x t : State} (h : SameSetup s x) (k : SameSetup x t) : SameSetup s t := by
  obtain ⟨ho, hr, hl, hp⟩ := h
  obtain ⟨ko, kr, kl, kp⟩ := k
  exact ⟨ko.trans ho, kr.trans hr, kl.trans hl, kp.trans hp⟩

/-- A step of the running exchange reads its setup and never writes it (spec/10 R27). -/
theorem ownStep_sameSetup (e : ExStep) (s : State) : SameSetup s (ownStep decided e s) := by
  rcases ownStep_cases e s with ⟨-, hs⟩ | ⟨y, hc, -, -, ⟨hs, -⟩ | ⟨k, -, i, hs⟩⟩
  · rw [hs]
    exact ⟨rfl, rfl, rfl, rfl⟩
  · rw [hs]
    exact hc.sameSetup.trans (endOf_sameSetup e y)
  · rw [hs]
    exact hc.sameSetup.trans ⟨rfl, rfl, rfl, rfl⟩

theorem OwnTurn.sameSetup {s x : State} (ht : OwnTurn s x) : SameSetup s x := by
  rw [ht.registers]
  exact ⟨rfl, rfl, rfl, rfl⟩

/-- Settles O54: of the effects of a step only reset and an entry write the setup. -/
theorem setupIsWrittenOnlyByEntry : Obligations.SetupIsWrittenOnlyByEntry := by
  unfold Obligations.SetupIsWrittenOnlyByEntry
  intro s t hs hne
  cases stepEffect_of_step hs with
  | reset hi => exact .inl ⟨_, hi⟩
  | entry hi hw hn o r => exact .inr ⟨_, _, _, _, hi, hw, hn, rfl, rfl, rfl⟩
  | environment e => exact absurd ⟨rfl, rfl, rfl, rfl⟩ hne
  | refusal rest => exact absurd ⟨rfl, rfl, rfl, rfl⟩ hne
  | unit rest hn hu =>
    obtain ⟨-, -, -, ho, hr, hl, hp⟩ := hu.exchange
    exact absurd ⟨ho, hr, hl, hp⟩ hne
  | own ht ha => exact absurd (ht.sameSetup.trans (ownStep_sameSetup _ _)) hne

/-! ### Reset -/

/-- Settles O1: the step is `resetBlock`, which writes the reset value of every register and keeps the environment. -/
theorem resetZeroesEveryRegister : Obligations.ResetZeroesEveryRegister := by
  unfold Obligations.ResetZeroesEveryRegister
  intro s rest hi
  refine ⟨resetBlock (withInputs s rest), step_of_plain (fetch_input hi), rfl, rfl, fun _ => rfl, ?_⟩
  simp [ErrReg.zero, stepCode, opCode, roleCode, statusWord, runCode, errKindCode, flagCode, FlagId.pos, dirCode, SameChannel,
    SameConditions]

/-! ### The host's writes -/

/-- Settles O52: in each case the step is the host write, which is the plain write while the block is not `BUSY` and nothing while
it is. -/
theorem hostWritesOnlyWhileNotBusy : Obligations.HostWritesOnlyWhileNotBusy := by
  unfold Obligations.HostWritesOnlyWhileNotBusy
  intro s rest
  constructor
  · intro g hi
    refine ⟨hostWriteSeg g (withInputs s rest), step_of_plain (fetch_input hi), ?_⟩
    by_cases hb : s.status.run = .busy
    · rw [hostWriteSeg_busy (s := withInputs s rest) g hb]
      simp [hb, SameBytes, SameExchange, SameChannel, SameConditions]
    · rw [hostWriteSeg_free (s := withInputs s rest) g hb]
      simp [hb, SameBytes, SameExchange, SameChannel, SameConditions]
  · intro k b hwf hi
    refine ⟨hostWriteBuf k b (withInputs s rest), step_of_plain (fetch_input hi), ?_⟩
    by_cases hb : s.status.run = .busy
    · rw [hostWriteBuf_busy (s := withInputs s rest) k b hb]
      simp [hb, SameExchange, SameChannel, SameConditions]
    · rw [hostWriteBuf_free (s := withInputs s rest) k b hb]
      simp [hb, read_write b _ hwf, eq_comm (a := k.val), SameExchange, SameChannel, SameConditions]

/-! ### The wired sequence -/

/-- Settles O10: a turn of the block fetches the control word of a send step, or the receive step itself. -/
theorem stepRunsTheWiredStep : Obligations.StepRunsTheWiredStep := by
  unfold Obligations.StepRunsTheWiredStep
  intro u s e ht ha
  constructor
  · intro w hw
    obtain ⟨i, hd⟩ := decode_builtControl hw
    exact ⟨i, hd, step_of_word ((fetch_turn ht).trans (fetchOwn_send ha hw)) hd⟩
  · intro hn
    exact step_of_plain ((fetch_turn ht).trans (fetchOwn_receive ha hn))

end Sys2Proof.Machine
end

section
/-! PROOFS. The channel: what a regular receive takes; that the block itself sets and clears no condition of the channel; and the
channel's own events. -/

namespace Sys2Proof.Machine

/-! ### A receive with a whole segment waiting -/

theorem recvTakes_regular {n : Nat} (h : 24 ≤ n) : recvTakes n .regular = 24 := Nat.min_eq_right h

/-- While 24 bytes wait, the choice is the regular one unless another is scripted (log entry 5). -/
theorem recvChoice_of_waiting {s : State} (h : 24 ≤ s.env.rxq.length) (hc : s.env.recvChoices = []) : recvChoice s = .regular := by
  simp only [recvChoice, hc, if_neg (Nat.not_lt.mpr h)]

theorem recvBlocked_of_waiting {s : State} (h : 24 ≤ s.env.rxq.length) : recvBlocked s = false := by
  simp only [recvBlocked, decide_eq_false (Nat.not_lt.mpr h), Bool.false_and]

theorem recvAnswer_of_waiting {s : State} (h : 24 ≤ s.env.rxq.length) (hc : s.env.recvChoices = []) :
    recvAnswer s = .bytes (s.env.rxq.take 24) := by
  simp only [recvAnswer, recvChoice_of_waiting h hc, recvTakes_regular h]

theorem afterRecv_rxq_of_waiting {s : State} (h : 24 ≤ s.env.rxq.length) (hc : s.env.recvChoices = []) :
    (afterRecv s).env.rxq = s.env.rxq.drop 24 := by
  rw [afterRecv_env_rxq, recvChoice_of_waiting h hc, recvTakes_regular h]

/-- Settles O43: the regular receive splits the queue after its first 24 bytes. -/
theorem receiveTakesTheFirstSegment : Obligations.ReceiveTakesTheFirstSegment := by
  unfold Obligations.ReceiveTakesTheFirstSegment
  intro s h hc
  refine ⟨recvBlocked_of_waiting h, _, recvAnswer_of_waiting h hc, List.length_take_of_le h, ?_⟩
  rw [afterRecv_rxq_of_waiting h hc, List.take_append_drop]

/-! ### The block sets and clears no condition of the channel -/

theorem SameConditions.refl (s : State) : SameConditions s s := ⟨rfl, rfl, rfl⟩

theorem SameConditions.trans {s x t : State} (h : SameConditions s x) (k : SameConditions x t) : SameConditions s t := by
  obtain ⟨hr, ht, hs⟩ := h
  obtain ⟨kr, kt, ks⟩ := k
  exact ⟨kr.trans hr, kt.trans ht, ks.trans hs⟩

theorem raise_sameConditions (k : ErrKind) (i : RaiseInfo) (y : State) : SameConditions y (raise k i y) := ⟨rfl, rfl, rfl⟩

/-- A check goes on with the rest of the step, or raises: `h` is what the `_cases` lemma of the check says. -/
theorem SameConditions.check {x t : State} {k : ErrKind} {rest : State → State} (h : t = rest x ∨ ∃ i, t = raise k i x)
    (hr : SameConditions x (rest x)) : SameConditions x t := by
  rcases h with rfl | ⟨i, rfl⟩
  · exact hr
  · exact raise_sameConditions k i x

theorem requireChecksum_sameConditions {x : State} {rest : State → State} (h : SameConditions x (rest x)) :
    SameConditions x (requireChecksum x rest) := .check (requireChecksum_cases x rest) h

theorem requireSeq_sameConditions {x : State} {rest : State → State} (h : SameConditions x (rest x)) :
    SameConditions x (requireSeq x rest) := .check (requireSeq_cases x rest) h

theorem requireAck_sameConditions (w : Word) {x : State} {rest : State → State} (h : SameConditions x (rest x)) :
    SameConditions x (requireAck w x rest) := .check (requireAck_cases w x rest) h

theorem requireFlag_sameConditions (f : FlagId) {x : State} {rest : State → State} (h : SameConditions x (rest x)) :
    SameConditions x (requireFlag f x rest) := .check (requireFlag_cases f x rest) h

theorem requireOnly_sameConditions (p : Params) (m : BitVec 6) {x : State} {rest : State → State} (h : SameConditions x (rest x)) :
    SameConditions x (requireOnly p m x rest) := .check (requireOnly_cases p m x rest) h

theorem sendSeg_sameConditions (p : Params) {x : State} {rest : State → State} (hr : ∀ y, SameConditions y (rest y)) :
    SameConditions x (sendSeg p x rest) := by
  have hy : SameConditions x (afterSend (Memory.bytes (pack p.wireOrder x.seg)) (loadSend p x)) := by simp [SameConditions]
  rcases hc : sendAnswer (sendChoice x) with c | _
  · by_cases h : c = 24
    · rw [sendSeg_whole p rest (h ▸ hc)]
      exact hy.trans (hr _)
    · rw [sendSeg_short p rest hc h]
      exact hy.trans (raise_sameConditions _ _ _)
  · rw [sendSeg_error p rest hc]
    exact hy.trans (raise_sameConditions _ _ _)

theorem sendStep_sameConditions (p : Params) {s : State} {build rest : State → State} (hb : SameConditions s (build s))
    (hr : ∀ y, SameConditions y (rest y)) : SameConditions s (sendStep p build rest s) := by
  cases h : sendBlocked s with
  | true =>
    rw [sendStep_blocked p build rest h]
    exact .refl s
  | false =>
    rw [sendStep_free p build rest h]
    exact hb.trans (sendSeg_sameConditions p hr)

theorem recvSeg_sameConditions (p : Params) (x : State) {rest : State → State} (hr : ∀ y, SameConditions y (rest y)) :
    SameConditions x (recvSeg p x rest) := by
  cases hb : recvBlocked x with
  | true =>
    rw [recvSeg_blocked p rest hb]
    exact .refl x
  | false =>
    have short : SameConditions x (bufUnspecified (afterRecv x)) := by simp [SameConditions]
    cases ha : recvAnswer x with
    | error =>
      rw [recvSeg_error p rest hb ha]
      exact short.trans (raise_sameConditions _ _ _)
    | bytes r =>
      by_cases h24 : r.length = 24
      · have whole : SameConditions x (latchSegment p r (afterRecv x)) := by simp [SameConditions]
        rw [recvSeg_whole p rest hb ha h24]
        exact whole.trans (hr _)
      · rw [recvSeg_short p rest hb ha h24]
        exact short.trans (raise_sameConditions _ _ _)

/-- No step of a running exchange sets or clears a condition of the channel (spec/20 R58). -/
theorem ownStep_sameConditions (p : Params) (e : ExStep) (s : State) : SameConditions s (ownStep p e s) := by
  cases e <;> simp only [ownStep]
  case oiSendRequest | oiSendAck | orSendGrant | ciSendFin | ciSendAck2 | crSendAck | crSendFin =>
    exact sendStep_sameConditions p (by simp [SameConditions]) fun _ => ⟨rfl, rfl, rfl⟩
  case oiAwaitGrant =>
    exact recvSeg_sameConditions p s fun _ => requireAck_sameConditions _ <| requireFlag_sameConditions _ <|
      requireFlag_sameConditions _ <| requireOnly_sameConditions p _ <| requireChecksum_sameConditions ⟨rfl, rfl, rfl⟩
  case orAwaitRequest =>
    exact recvSeg_sameConditions p s fun _ => requireChecksum_sameConditions <| requireFlag_sameConditions _ <|
      requireOnly_sameConditions p _ ⟨rfl, rfl, rfl⟩
  case orAwaitAck | crAwaitAck =>
    exact recvSeg_sameConditions p s fun _ => requireChecksum_sameConditions <| requireSeq_sameConditions <|
      requireAck_sameConditions _ <| requireFlag_sameConditions _ <| requireOnly_sameConditions p _ ⟨rfl, rfl, rfl⟩
  case ciAwaitAck1 | ciAwaitFin | crAwaitFin =>
    exact recvSeg_sameConditions p s fun _ => requireChecksum_sameConditions <| requireAck_sameConditions _ <|
      requireFlag_sameConditions _ <| requireOnly_sameConditions p _ ⟨rfl, rfl, rfl⟩

theorem OwnTurn.sameConditions {s x : State} (ht : OwnTurn s x) : SameConditions s x := by
  rcases ht with ⟨-, rfl⟩ | ⟨rest, -, rfl⟩ <;> exact ⟨rfl, rfl, rfl⟩

theorem turn_sameConditions {s x t : State} (ht : OwnTurn s x) (hs : step s = .next t) : SameConditions s t := by
  refine ht.sameConditions.trans ?_
  have hf := fetch_turn ht
  by_cases hb : x.status.run = .busy
  · cases he : stepAt x.op x.role x.stepIx with
    | none => cases hs.symm.trans (step_of_stuck (hf.trans (fetchOwn_stuck hb he)))
    | some e =>
      have ha : activeStep x = some e := by simp only [activeStep, if_pos hb, he]
      cases hs.symm.trans (step_of_own hf ha)
      exact ownStep_sameConditions decided e x
  · cases hs.symm.trans (step_of_plain (hf.trans (fetchOwn_idle hb)))
    exact .refl x

theorem onCommandPort_sameConditions {act : State → State} {s t : State} (h : onCommandPort act s = .next t)
    (hact : ∀ x, SameConditions x (act x)) : SameConditions s t := by
  by_cases hb : s.status.run = .busy
  · cases h.symm.trans (onCommandPort_refuses act hb)
    exact ⟨rfl, rfl, rfl⟩
  · cases h.symm.trans (onCommandPort_accepts act hb)
    exact hact (acceptCommand s)

theorem exec_command_sameConditions {i : Instr} {s t : State} (hi : isCommand i = true) (h : exec i s = .next t) :
    SameConditions s t := by
  cases i
  case segSyn | segSynAck | segAck | segFin => cases hi
  all_goals
    simp only [exec, execCreate, execSetFlag, execClearFlag, execCheckFlag, execGetOff, execGetRsv, execPack, execUnpack, execReport,
      execChecksum, execStamp, execVerify, execOpenI, execOpenR, execCloseI, execCloseR] at h
  case create a b => exact onCommandPort_sameConditions h fun x => by simp [createSeg, SameConditions]
  all_goals exact onCommandPort_sameConditions h fun _ => ⟨rfl, rfl, rfl⟩

theorem command_sameConditions {s t : State} {w : Byte} {a b : Half} {rest : List Input}
    (hi : s.env.inputs = .command w a b :: rest) (hs : step s = .next t) : SameConditions s t := by
  have hf : fetch s = .word (.cmd w a b) (withInputs s rest) := fetch_input hi
  have hx : SameConditions s (withInputs s rest) := ⟨rfl, rfl, rfl⟩
  cases hd : decode (.cmd w a b) with
  | rejected r =>
    cases hs.symm.trans (step_of_illegal hf hd)
    exact hx
  | ok i => exact hx.trans (exec_command_sameConditions (decode_command_isCommand hd) ((step_of_word hf hd).symm.trans hs))

theorem hostWriteSeg_sameConditions (g : Segment) (s : State) : SameConditions s (hostWriteSeg g s) := by
  by_cases hb : s.status.run = .busy
  · rw [hostWriteSeg_busy g hb]
    exact .refl s
  · rw [hostWriteSeg_free g hb]
    exact ⟨rfl, rfl, rfl⟩

theorem hostWriteBuf_sameConditions (k : Nat) (b : Byte) (s : State) : SameConditions s (hostWriteBuf k b s) := by
  by_cases hb : s.status.run = .busy
  · rw [hostWriteBuf_busy k b hb]
    exact .refl s
  · rw [hostWriteBuf_free k b hb]
    exact ⟨rfl, rfl, rfl⟩

/-! ### The channel's events -/

/-- A direction that was `down` is `down` (spec/20 R62 (4)). -/
def KeepsDown (s t : State) : Prop :=
  (s.env.rxDown = true → t.env.rxDown = true) ∧ (s.env.txDown = true → t.env.txDown = true)

theorem SameConditions.keepsDown {s t : State} (h : SameConditions s t) : KeepsDown s t := by
  obtain ⟨hr, ht, -⟩ := h
  exact ⟨hr.trans, ht.trans⟩

/-- Whatever comes next, an event outside or a turn of the block, no step clears a `down`. -/
theorem step_keepsDown {s t : State} (hs : step s = .next t) : KeepsDown s t := by
  have plain : ∀ {x}, fetch s = .plain x → t = x := fun hf => by
    cases hs.symm.trans (step_of_plain hf)
    rfl
  match hi : s.env.inputs with
  | [] => exact (turn_sameConditions (.inl ⟨hi, rfl⟩) hs).keepsDown
  | .advance :: rest => exact (turn_sameConditions (.inr ⟨rest, hi, rfl⟩) hs).keepsDown
  | .command w a b :: rest => exact (command_sameConditions hi hs).keepsDown
  | .writeSeg g :: rest =>
    rw [plain (fetch_input hi)]
    exact (hostWriteSeg_sameConditions g (withInputs s rest)).keepsDown
  | .writeBuf k b :: rest =>
    rw [plain (fetch_input hi)]
    exact (hostWriteBuf_sameConditions k b (withInputs s rest)).keepsDown
  | .reset :: rest | .arrive bs :: rest | .collect n :: rest | .txStall :: rest | .txResume :: rest =>
    rw [plain (fetch_input hi)]
    exact ⟨id, id⟩
  | .rxDown :: rest =>
    rw [plain (fetch_input hi)]
    exact ⟨fun _ => rfl, id⟩
  | .txDown :: rest =>
    rw [plain (fetch_input hi)]
    exact ⟨id, fun _ => rfl⟩

/-- Settles O60: each event of the channel is a plain fetch of the state with its own part of the channel changed, and no step clears
a `down`. -/
theorem channelEventsTouchOnlyTheChannel : Obligations.ChannelEventsTouchOnlyTheChannel := by
  unfold Obligations.ChannelEventsTouchOnlyTheChannel
  refine ⟨fun s rest => ⟨?arrive, ?collect, ?rxDown, ?txDown, ?txStall, ?txResume⟩, fun _ _ hs => step_keepsDown hs⟩
  case arrive | collect =>
    intro _ hi
    exact step_of_plain (fetch_input hi)
  all_goals
    intro hi
    exact step_of_plain (fetch_input hi)

end Sys2Proof.Machine
end

section
/-! PROOFS. The encoding: the two halves of a command word, which operands each form of operand takes, and that the decoder and the
encoder are inverse (spec/30 R92 to R95, R87). -/

namespace Sys2Proof

/-! ### The two halves of a command word -/

theorem cmdOpc_lt (w : Byte) : cmdOpc w < 16 := Nat.div_lt_of_lt_mul w.isLt

@[simp] theorem cmdOpc_commandWord {opc opd : Nat} (ho : opc < 16) (hd : opd < 16) : cmdOpc (commandWord opc opd) = opc := by
  simp only [cmdOpc, commandWord, BitVec.toNat_ofNat]
  omega

@[simp] theorem cmdOpd_commandWord {opc opd : Nat} (hd : opd < 16) : cmdOpd (commandWord opc opd) = opd := by
  simp only [cmdOpd, commandWord, BitVec.toNat_ofNat]
  omega

/-- No bit of a command word lies outside `opc` and `opd` (spec/30 R92). -/
theorem commandWord_of_halves {w : Byte} {opc opd : Nat} (ho : cmdOpc w = opc) (hd : cmdOpd w = opd) : commandWord opc opd = w := by
  apply BitVec.eq_of_toNat_eq
  subst ho hd
  have hw := w.isLt
  simp only [commandWord, cmdOpc, cmdOpd, BitVec.toNat_ofNat]
  omega

/-! ### The forms of operand (spec/30 R94) -/

theorem withZero_ok_iff {opd : Nat} {i j : Instr} : withZero opd i = .ok j ↔ opd = 0 ∧ j = i := by
  by_cases h : opd = 0 <;> simp [withZero, h, eq_comm]

theorem flagOfOperand_eq_some {opd : Nat} {f : FlagId} : flagOfOperand opd = some f ↔ opd = f.pos := by
  constructor
  · intro h
    unfold flagOfOperand at h
    split at h <;> cases h <;> rfl
  · rintro rfl
    cases f <;> rfl

theorem withFlag_ok_iff {opd : Nat} {k : FlagId → Instr} {j : Instr} : withFlag opd k = .ok j ↔ ∃ f : FlagId, opd = f.pos ∧ j = k f := by
  simp only [← flagOfOperand_eq_some, withFlag]
  cases flagOfOperand opd <;> simp [eq_comm]

theorem withRole_ok_iff {opd : Nat} {i r j : Instr} : withRole opd i r = .ok j ↔ opd = 0 ∧ j = i ∨ opd = 1 ∧ j = r := by
  match opd with
  | 0 | 1 | _ + 2 => simp [withRole, eq_comm]

theorem exists_flag_pos_iff {opd : Nat} : (∃ f : FlagId, opd = f.pos) ↔ opd < 6 := by
  constructor
  · rintro ⟨f, rfl⟩
    exact Machine.pos_lt f
  · intro h
    match opd, h with
    | 0, _ => exact ⟨.fin, rfl⟩
    | 1, _ => exact ⟨.syn, rfl⟩
    | 2, _ => exact ⟨.rst, rfl⟩
    | 3, _ => exact ⟨.psh, rfl⟩
    | 4, _ => exact ⟨.ack, rfl⟩
    | 5, _ => exact ⟨.urg, rfl⟩

/-- A row without an operand accepts exactly the operand 0. -/
theorem withZero_accepts_iff {opd : Nat} {i : Instr} : (∃ j, withZero opd i = .ok j) ↔ opd = 0 := by
  simp [withZero_ok_iff]

/-- A row with a flag operand accepts exactly the six flag identifiers. -/
theorem withFlag_accepts_iff {opd : Nat} {k : FlagId → Instr} : (∃ j, withFlag opd k = .ok j) ↔ opd < 6 := by
  rw [← exists_flag_pos_iff]
  simp only [withFlag_ok_iff]
  constructor
  · rintro ⟨_, f, hf, _⟩
    exact ⟨f, hf⟩
  · rintro ⟨f, hf⟩
    exact ⟨k f, f, hf, rfl⟩

/-- A row with a role operand accepts exactly the two roles. -/
theorem withRole_accepts_iff {opd : Nat} {i r : Instr} : (∃ j, withRole opd i r = .ok j) ↔ opd < 2 := by
  simp only [withRole_ok_iff, exists_or, exists_and_left, exists_eq, and_true]
  omega

/-! ### From an instruction to its word and back -/

theorem pos_lt_sixteen (f : FlagId) : f.pos < 16 := Nat.lt_trans (Machine.pos_lt f) (by decide)

@[simp] theorem withFlag_pos (f : FlagId) (k : FlagId → Instr) : withFlag f.pos k = .ok (k f) := withFlag_ok_iff.mpr ⟨f, rfl, rfl⟩

/-- Settles O5: the halves of each row's word select that row again, and the row reads the operand the encoder wrote. -/
theorem decodeEncodeRoundTrip : Obligations.DecodeEncodeRoundTrip := by
  unfold Obligations.DecodeEncodeRoundTrip
  intro i
  cases i
  case segSyn | segSynAck | segAck | segFin => rfl
  case setFlag f | clearFlag f | checkFlag f => simp [encode, decode, decodeCommand, pos_lt_sixteen f]
  case openI | openR | closeI | closeR => simp [encode, decode, decodeCommand, withRole]
  all_goals simp [encode, decode, decodeCommand, withZero]

/-- A legal command word is its instruction's word, with the data operands kept by the rows that read them. -/
theorem encode_of_decode_command {w : Byte} {a b : Half} {i : Instr} (h : decode (.cmd w a b) = .ok i) :
    encode i = .cmd w a b ∨ encode i = .cmd w 0#16 0#16 ∧ ¬ (cmdOpc w = 0 ∨ cmdOpc w = 12 ∨ cmdOpc w = 13) := by
  simp only [decode, decodeCommand] at h
  split at h
  case h_1 ho =>
    obtain ⟨hd, rfl⟩ := withZero_ok_iff.mp h
    exact .inl (by rw [encode, commandWord_of_halves ho hd])
  case h_2 ho | h_3 ho | h_4 ho =>
    obtain ⟨f, hd, rfl⟩ := withFlag_ok_iff.mp h
    exact .inr ⟨by rw [encode, commandWord_of_halves ho hd], by omega⟩
  case h_13 ho | h_14 ho =>
    rcases withRole_ok_iff.mp h with ⟨hd, rfl⟩ | ⟨hd, rfl⟩
    all_goals exact .inl (by rw [encode, commandWord_of_halves ho hd])
  case h_15 => cases h
  all_goals
    rename_i ho
    obtain ⟨hd, rfl⟩ := withZero_ok_iff.mp h
    exact .inr ⟨by rw [encode, commandWord_of_halves ho hd], by omega⟩

theorem encode_of_decode_control {w : Half} {i : Instr} (h : decode (.ctrl w) = .ok i) : encode i = .ctrl w := by
  simp only [decode, decodeControl] at h
  repeat' split at h
  all_goals cases h
  all_goals
    rename_i hw
    rw [hw, encode]

/-- Settles O7: the word is put together again from the halves the decoder read. -/
theorem decodedWordKeepsItsBits : Obligations.DecodedWordKeepsItsBits := by
  unfold Obligations.DecodedWordKeepsItsBits
  refine ⟨fun w a b i h => ?_, fun w i => encode_of_decode_control⟩
  rcases encode_of_decode_command h with he | ⟨he, hn⟩
  · exact ⟨a, b, he, fun _ => ⟨rfl, rfl⟩⟩
  · exact ⟨_, _, he, fun hr => absurd hr hn⟩

/-! ### The legal words -/

/-- The checks of spec/30 R95 (a) to (d) as facts about the two halves. -/
theorem wellFormed_command_iff {w : Byte} {a b : Half} :
    (Encoded.cmd w a b).wellFormed = true ↔
      (cmdOpc w ≠ 14 ∧ cmdOpc w ≠ 15) ∧ (1 ≤ cmdOpc w ∧ cmdOpc w ≤ 3 → cmdOpd w < 6) ∧
        (cmdOpc w = 12 ∨ cmdOpc w = 13 → cmdOpd w < 2) ∧
        (1 ≤ cmdOpc w ∧ cmdOpc w ≤ 3 ∨ cmdOpc w = 12 ∨ cmdOpc w = 13 ∨ cmdOpd w = 0) := by
  simp only [Encoded.wellFormed, opcodeAssigned, flagOperandLegal, roleOperandLegal, zeroOperandLegal, Bool.and_eq_true,
    Bool.or_eq_true, Bool.not_eq_true', Bool.and_eq_false_iff, Bool.or_eq_false_iff, beq_iff_eq, beq_eq_false_iff_ne,
    decide_eq_true_eq, decide_eq_false_iff_not]
  omega

theorem decode_command_accepts_iff (w : Byte) (a b : Half) :
    (∃ i, decode (.cmd w a b) = .ok i) ↔ (Encoded.cmd w a b).wellFormed = true := by
  rw [wellFormed_command_iff]
  simp only [decode, decodeCommand]
  split
  case h_2 | h_3 | h_4 =>
    rw [withFlag_accepts_iff]
    omega
  case h_13 | h_14 =>
    rw [withRole_accepts_iff]
    omega
  case h_15 =>
    have hw := cmdOpc_lt w
    simp only [reduceCtorEq, exists_false, false_iff, imp_false] at *
    omega
  all_goals
    rw [withZero_accepts_iff]
    omega

theorem decode_control_accepts_iff (w : Half) : (∃ i, decode (.ctrl w) = .ok i) ↔ (Encoded.ctrl w).wellFormed = true := by
  simp only [decode, decodeControl, Encoded.wellFormed, builtControlWord]
  repeat' split
  all_goals simp [*]

/-- Settles O6: row by row, the operands the decoder accepts are those the checks leave. -/
theorem decodeAcceptsExactlyTheLegalWords : Obligations.DecodeAcceptsExactlyTheLegalWords := by
  unfold Obligations.DecodeAcceptsExactlyTheLegalWords
  intro e
  cases e with
  | cmd w a b => exact decode_command_accepts_iff w a b
  | ctrl w => exact decode_control_accepts_iff w

/-- Settles O8: each clause decodes one written-out word. -/
theorem writtenOutWordsDecode : Obligations.WrittenOutWordsDecode := by
  unfold Obligations.WrittenOutWordsDecode
  decide

/-- Settles O9: a pending command is fetched as its word, with the event taken from the list. -/
theorem stepRunsTheDecodedCommand : Obligations.StepRunsTheDecodedCommand :=
  fun _ _ _ _ _ _ hi hd => Machine.step_of_word (Machine.fetch_input hi) hd

end Sys2Proof
end

section
/-! PROOFS. The send steps: what each hands to the channel, and that every segment sent is well built (spec/30 R87, R89). -/

namespace Sys2Proof.Machine

/-- What a send step builds before it sends (spec/42 R141, R143, R146; spec/43 R161, R164, R167, R168). -/
def sendBuild (p : Params) : ExStep → State → State
  | .oiSendRequest => fun s => mapSeg stamp (mapSeg (setFlag .syn) (drawnSegment p s))
  | .orSendGrant => fun s => mapSeg stamp (mapSeg (setFlag .ack) (mapSeg (setFlag .syn) (ackPeer (drawnSegment p s))))
  | .oiSendAck | .ciSendAck2 => fun s => mapSeg stamp (mapSeg (setFlag .ack) (followUpSegment s))
  | .ciSendFin => fun s => mapSeg stamp (mapSeg (setFlag .fin) (drawnSegment p s))
  | .crSendAck => fun s => mapSeg stamp (mapSeg (setFlag .ack) (ackPeer (drawnSegment p s)))
  | .crSendFin => fun s => mapSeg stamp (mapSeg (setFlag .fin) (mapSeg (clearFlag p .ack) s))
  | .oiAwaitGrant | .orAwaitRequest | .orAwaitAck | .ciAwaitAck1 | .ciAwaitFin | .crAwaitFin | .crAwaitAck => id

/-- A step that builds a segment is the send step of what it builds. -/
theorem ownStep_send (p : Params) {e : ExStep} {w : Half} (h : builtControl e = some w) (s : State) :
    ownStep p e s = sendStep p (sendBuild p e) (endOf e) s := by
  cases e <;> cases h <;> rfl

@[simp] theorem endOf_seg (e : ExStep) (s : State) : (endOf e s).seg = s.seg := by cases e <;> rfl

@[simp] theorem endOf_buf (e : ExStep) (s : State) : (endOf e s).buf = s.buf := by cases e <;> rfl

/-- However the channel answers, a send step that is not blocked leaves in `SEG` what it built, and in `BUF` the image of it. -/
theorem ownStep_send_seg_buf (p : Params) {e : ExStep} {w : Half} {s : State} (hw : builtControl e = some w)
    (hb : sendBlocked s = false) :
    (ownStep p e s).seg = (sendBuild p e s).seg ∧ (ownStep p e s).buf = pack p.wireOrder (sendBuild p e s).seg := by
  obtain ⟨y, -, hseg, -, -, hbuf, hend⟩ := sendSeg_cases p (sendBuild p e s) (endOf e)
  rw [ownStep_send p hw, sendStep_free p _ _ hb]
  rcases hend with hend | ⟨i, hend⟩ <;> simp [hend, hseg, hbuf]

theorem stepAt_eq_crSendFin {o : ExOp} {r : Role} {k : StepIx} (h : stepAt o r k = some .crSendFin) :
    o = .closeEx ∧ r = .responder ∧ k = .s2 := by
  cases o <;> cases r <;> cases k <;> cases h
  exact ⟨rfl, rfl, rfl⟩

/-- What each send step builds has the control word of its kind, the two ports, zero placeholders and the stamp. At
`CR.SendFin` that rests on the template the invariant keeps in `SEG` (spec/70 R227). -/
theorem sendBuild_built {e : ExStep} {w : Half} {s : State} (h : Inv s) (ha : activeStep s = some e) (hw : builtControl e = some w) :
    Built s (sendBuild decided e s).seg.seq (sendBuild decided e s).seg.ack w (sendBuild decided e s).seg := by
  obtain ⟨hb, hs⟩ := activeStep_eq ha
  have syn : ctrlSet .syn 0x6000#16 = 0x6002#16 := by decide
  have synAck : ctrlSet .ack 0x6002#16 = 0x6012#16 := by decide
  have fin : ctrlSet .fin 0x6000#16 = 0x6001#16 := by decide
  cases e <;> cases hw
  case crSendFin =>
    obtain ⟨ho, hr, hk⟩ := stepAt_eq_crSendFin hs
    have ht : s.seg = ackTemplate s := h.template hb ho hr hk
    have clear : ctrlClear decided .ack 0x6010#16 = 0x6000#16 := by decide
    simp [sendBuild, Built, ht, ackTemplate, setFlag, clearFlag, clear, fin]
  all_goals simp [sendBuild, Built, fresh, setFlag, syn, synAck, fin, ctrlSet_ack_fresh]

/-- The control words of the four kinds: `hlen` 6, the reserved bits 0, RST, PSH and URG clear (spec/30 R87). -/
theorem builtControl_fields {e : ExStep} {w : Half} (h : builtControl e = some w) :
    ctrlHlen w = 6#4 ∧ ctrlReserved w = 0#6 ∧ w.getLsbD FlagId.rst.pos = false ∧ w.getLsbD FlagId.psh.pos = false ∧
      w.getLsbD FlagId.urg.pos = false := by
  cases e <;> cases h <;> decide

/-- Settles O41: after the step `SEG` holds what the send step built and `BUF` its image. -/
theorem everySentSegmentIsWellBuilt : Obligations.EverySentSegmentIsWellBuilt := by
  unfold Obligations.EverySentSegmentIsWellBuilt
  rintro u s t e w hinv hturn ⟨ha, hb⟩ hw hs
  cases hs.symm.trans (step_turn hturn ha)
  obtain ⟨hseg, hbuf⟩ := ownStep_send_seg_buf decided hw hb
  obtain ⟨hsport, hdport, -, -, hctrl, hwin, hurg, hopt, hcsum⟩ := sendBuild_built hinv ha hw
  obtain ⟨hhlen, hrsv, hrst, hpsh, hurgBit⟩ := builtControl_fields hw
  rw [hbuf, hseg]
  simp [flagSet, hctrl, hhlen, hrsv, hrst, hpsh, hurgBit, hwin, hurg, hopt, hsport, hdport, verify, ← hcsum]

end Sys2Proof.Machine
end

section
/-! PROOFS. The wire image: what `MemRead` reads is a number written in base 256 whose digits are the bytes, so the field operands of
`pack` and `unpack` undo each other in either byte order (spec/20 R52 to R54; spec/40 R119). -/

namespace Sys2Proof.Machine

/-! ### Numbers in base 256 -/

/-- The number whose `n` digits in base 256, the lowest first, are `f 0` to `f (n - 1)`. -/
def base256 (f : Nat → Byte) : Nat → Nat
  | 0 => 0
  | n + 1 => base256 f n + 256 ^ n * (f n).toNat

theorem base256_congr {f h : Nat → Byte} {n : Nat} (he : ∀ w < n, f w = h w) : base256 f n = base256 h n := by
  induction n with
  | zero => rfl
  | succ n ih => rw [base256, base256, ih fun w hw => he w (Nat.lt_succ_of_lt hw), he n (Nat.lt_succ_self n)]

theorem base256_lt (f : Nat → Byte) (n : Nat) : base256 f n < 256 ^ n := by
  induction n with
  | zero => exact Nat.one_pos
  | succ n ih =>
    have hdigit : 256 ^ n * (f n).toNat ≤ 256 ^ n * 255 := Nat.mul_le_mul_left _ (Nat.le_of_lt_succ (f n).isLt)
    rw [base256, Nat.pow_succ]
    omega

/-- The digits of a number make up the number's low digits. -/
theorem base256_of_digits {f : Nat → Byte} {n v : Nat} (h : ∀ w < n, (f w).toNat = v / 256 ^ w % 256) :
    base256 f n = v % 256 ^ n := by
  induction n with
  | zero => exact (Nat.mod_one v).symm
  | succ n ih => rw [base256, ih fun w hw => h w (Nat.lt_succ_of_lt hw), h n (Nat.lt_succ_self n), Nat.mod_pow_succ]

/-- The lowest digit split off. -/
theorem base256_succ_low (f : Nat → Byte) (n : Nat) : base256 f (n + 1) = (f 0).toNat + 256 * base256 (fun w => f (w + 1)) n := by
  induction n with
  | zero => simp only [base256, Nat.pow_zero, Nat.one_mul, Nat.zero_add, Nat.mul_zero, Nat.add_zero]
  | succ n ih =>
    have hpow : 256 ^ (n + 1) * (f (n + 1)).toNat = 256 * (256 ^ n * (f (n + 1)).toNat) := by
      rw [Nat.pow_succ', Nat.mul_assoc]
    rw [base256, ih, hpow, base256]
    omega

/-- The digits of a number made up of bytes are the bytes. -/
theorem digit_base256 (f : Nat → Byte) {n j : Nat} (hj : j < n) : base256 f n / 256 ^ j % 256 = (f j).toNat := by
  induction j generalizing n f with
  | zero =>
    obtain ⟨n, rfl⟩ := Nat.exists_eq_succ_of_ne_zero (Nat.ne_of_gt hj)
    have hlt := (f 0).isLt
    rw [base256_succ_low, Nat.pow_zero, Nat.div_one]
    omega
  | succ j ih =>
    obtain ⟨n, rfl⟩ := Nat.exists_eq_succ_of_ne_zero (Nat.ne_of_gt (Nat.zero_lt_of_lt hj))
    have hlt := (f 0).isLt
    have htail : ((f 0).toNat + 256 * base256 (fun w => f (w + 1)) n) / 256 = base256 (fun w => f (w + 1)) n := by omega
    rw [base256_succ_low, Nat.pow_succ', ← Nat.div_div_eq_div_mul, htail]
    exact ih (fun w => f (w + 1)) (Nat.lt_of_succ_lt_succ hj)

/-! ### `MemRead` in either byte order -/

theorem byteWeight_lt (o : WireOrder) {n k : Nat} (hk : k < n) : byteWeight o n k < n := by
  cases o
  · exact hk
  · simp only [byteWeight]
    omega

/-- The byte of weight `byteWeight o n k` stands at `k`: either order is its own inverse. -/
theorem byteWeight_byteWeight (o : WireOrder) {n k : Nat} (hk : k < n) : byteWeight o n (byteWeight o n k) = k := by
  cases o
  · rfl
  · simp only [byteWeight]
    omega

/-- Bytes summed up with rising weights, the first the lowest digit. -/
theorem sum_rising (f : Nat → Byte) (n : Nat) : ((List.range n).map fun k => 256 ^ k * (f k).toNat).sum = base256 f n := by
  induction n with
  | zero => rfl
  | succ n ih => simp only [List.range_succ, List.map_append, List.sum_append, ih, List.map_cons, List.map_nil, List.sum_cons,
      List.sum_nil, Nat.add_zero, base256]

/-- Bytes summed up with falling weights, the last the lowest digit. -/
theorem sum_falling (f : Nat → Byte) (n : Nat) :
    ((List.range n).map fun k => 256 ^ (n - (k + 1)) * (f k).toNat).sum = base256 (fun w => f (n - (w + 1))) n := by
  induction n generalizing f with
  | zero => rfl
  | succ n ih =>
    have hshift : ∀ w < n, f (n - (w + 1) + 1) = f (n - w) := fun w hw => congrArg f (by omega)
    have hrest := (ih fun k => f (k + 1)).trans (base256_congr hshift)
    simp only [List.range_succ_eq_map, List.map_cons, List.map_map, Function.comp_def, List.sum_cons, Nat.add_sub_add_right,
      Nat.sub_zero, Nat.succ_eq_add_one, hrest, base256, Nat.sub_self]
    exact Nat.add_comm _ _

/-- `MemRead` by weight: the digit of weight `w` is the byte at the offset of that weight (spec/20 R54). -/
theorem memRead_eq_base256 (o : WireOrder) (m : Memory) (addr n : Nat) :
    memRead o m addr n = base256 (fun w => Memory.read m (addr + byteWeight o n w)) n := by
  cases o
  case le => exact sum_rising (fun k => Memory.read m (addr + k)) n
  case be =>
    simp only [memRead, byteWeight, Nat.sub_sub, Nat.add_comm 1]
    exact sum_falling (fun k => Memory.read m (addr + k)) n

theorem memRead_lt (o : WireOrder) (m : Memory) (addr n : Nat) : memRead o m addr n < 256 ^ n := by
  rw [memRead_eq_base256]
  exact base256_lt _ n

/-- Where the bytes are those of a number, `MemRead` reads that number. -/
theorem memRead_of_bytes {o : WireOrder} {m : Memory} {addr n v : Nat}
    (h : ∀ k < n, Memory.read m (addr + k) = BitVec.ofNat 8 (v / 256 ^ byteWeight o n k)) : memRead o m addr n = v % 256 ^ n := by
  rw [memRead_eq_base256]
  refine base256_of_digits fun w hw => ?_
  rw [h _ (byteWeight_lt o hw), byteWeight_byteWeight o hw, BitVec.toNat_ofNat]

/-- The bytes of the number `MemRead` reads are the bytes it read. -/
theorem byte_memRead (o : WireOrder) (m : Memory) {addr n k : Nat} (hk : k < n) :
    BitVec.ofNat 8 (memRead o m addr n / 256 ^ byteWeight o n k) = Memory.read m (addr + k) := by
  apply BitVec.eq_of_toNat_eq
  rw [BitVec.toNat_ofNat, memRead_eq_base256]
  exact (digit_base256 _ (byteWeight_lt o hk)).trans (by rw [byteWeight_byteWeight o hk])

/-! ### The fields of an image -/

theorem field16_toNat (o : WireOrder) (m : Memory) (addr : Nat) : (field16 o m addr).toNat = memRead o m addr 2 :=
  BitVec.toNat_ofNat _ _ |>.trans (Nat.mod_eq_of_lt (memRead_lt o m addr 2))

theorem field32_toNat (o : WireOrder) (m : Memory) (addr : Nat) : (field32 o m addr).toNat = memRead o m addr 4 :=
  BitVec.toNat_ofNat _ _ |>.trans (Nat.mod_eq_of_lt (memRead_lt o m addr 4))

theorem field16_of_bytes {o : WireOrder} {m : Memory} {addr : Nat} {v : Half}
    (h : ∀ k < 2, Memory.read m (addr + k) = BitVec.ofNat 8 (v.toNat / 256 ^ byteWeight o 2 k)) : field16 o m addr = v :=
  BitVec.eq_of_toNat_eq <| (field16_toNat o m addr).trans <| (memRead_of_bytes h).trans (Nat.mod_eq_of_lt v.isLt)

theorem field32_of_bytes {o : WireOrder} {m : Memory} {addr : Nat} {v : Word}
    (h : ∀ k < 4, Memory.read m (addr + k) = BitVec.ofNat 8 (v.toNat / 256 ^ byteWeight o 4 k)) : field32 o m addr = v :=
  BitVec.eq_of_toNat_eq <| (field32_toNat o m addr).trans <| (memRead_of_bytes h).trans (Nat.mod_eq_of_lt v.isLt)

theorem byte_field16 (o : WireOrder) (m : Memory) {addr a : Nat} (hlo : addr ≤ a) (hhi : a < addr + 2) :
    BitVec.ofNat 8 ((field16 o m addr).toNat / 256 ^ byteWeight o 2 (a - addr)) = Memory.read m a := by
  rw [field16_toNat, byte_memRead o m (Nat.sub_lt_left_of_lt_add hlo hhi), Nat.add_sub_of_le hlo]

theorem byte_field32 (o : WireOrder) (m : Memory) {addr a : Nat} (hlo : addr ≤ a) (hhi : a < addr + 4) :
    BitVec.ofNat 8 ((field32 o m addr).toNat / 256 ^ byteWeight o 4 (a - addr)) = Memory.read m a := by
  rw [field32_toNat, byte_memRead o m (Nat.sub_lt_left_of_lt_add hlo hhi), Nat.add_sub_of_le hlo]

/-- Every field of an image is the segment's field: its bytes stand at its offsets (spec/20 R52). -/
theorem unpack_pack (o : WireOrder) (g : Segment) : unpack o (pack o g) = g := by
  obtain ⟨sport, dport, seq, ack, ctrl, win, csum, urg, opt⟩ := g
  simp only [unpack, Segment.mk.injEq]
  refine ⟨field16_of_bytes fun k hk => ?_, field16_of_bytes fun k hk => ?_, field32_of_bytes fun k hk => ?_,
    field32_of_bytes fun k hk => ?_, field16_of_bytes fun k hk => ?_, field16_of_bytes fun k hk => ?_,
    field16_of_bytes fun k hk => ?_, field16_of_bytes fun k hk => ?_, field32_of_bytes fun k hk => ?_⟩
  all_goals simp (disch := omega) only [read_pack, if_pos, if_neg, Nat.zero_add, Nat.add_sub_cancel_left]

/-- Every byte of a memory stands in one of the nine fields, and the image of those fields holds it again. -/
theorem read_pack_unpack (o : WireOrder) (m : Memory) {a : Nat} (ha : a < 24) : Memory.read (pack o (unpack o m)) a = Memory.read m a := by
  simp only [read_pack, unpack, if_pos ha]
  repeat' split
  case isTrue => exact byte_field16 o m (Nat.zero_le a) (by omega)
  all_goals simp (disch := omega) only [byte_field16, byte_field32]

/-- On canonical memories `unpack` loses nothing. -/
theorem pack_unpack (o : WireOrder) {m : Memory} (h : Memory.wf m = true) : pack o (unpack o m) = m :=
  wf_ext (pack_wf o _) h fun _ ha => read_pack_unpack o m ha

/-- Settles O20: an image's fields are the segment's, a memory's fields have that memory as their image, and 24 bytes are the bytes of
the memory they make up. -/
theorem codecIsABijection : Obligations.CodecIsABijection := by
  unfold Obligations.CodecIsABijection
  refine fun o => ⟨unpack_pack o, fun m => pack_unpack o, fun bs hbs => ?_⟩
  rw [pack_unpack o (ofBytes_wf (Nat.le_of_eq hbs)), bytes_ofBytes hbs]

/-- The fields that `unpack` reads, each from its bytes, the lowest first (spec/30 R80). -/
theorem wireSegment_unpack (m : Memory) : WireSegment (Memory.bytes m) (unpack .le m) := by
  simp (disch := decide) only [WireSegment, unpack, field16_toNat, field32_toNat, memRead_two_le, memRead_four_le, bytes_getD, and_self]

end Sys2Proof.Machine
end

section
/-! PROOFS. The control word after each flag operation, and how the operations compose (spec/40 R111, R112, R119). -/

namespace Sys2Proof.Machine

/-! ### The control word, flag by flag -/

theorem ctrlClear_decided (f : FlagId) (c : Half) : ctrlClear decided f c = c &&& ~~~(flagMask f) := by
  simp [ctrlClear]

theorem ctrlSet_ctrlSet (f : FlagId) (c : Half) : ctrlSet f (ctrlSet f c) = ctrlSet f c := by
  simp only [ctrlSet, BitVec.or_assoc, BitVec.or_self]

theorem ctrlSet_comm (f h : FlagId) (c : Half) : ctrlSet h (ctrlSet f c) = ctrlSet f (ctrlSet h c) := by
  simp only [ctrlSet, BitVec.or_assoc, BitVec.or_comm (flagMask f)]

theorem ctrlClear_ctrlClear (f : FlagId) (c : Half) : ctrlClear decided f (ctrlClear decided f c) = ctrlClear decided f c := by
  simp only [ctrlClear_decided, BitVec.and_assoc, BitVec.and_self]

theorem ctrlClear_comm (f h : FlagId) (c : Half) :
    ctrlClear decided h (ctrlClear decided f c) = ctrlClear decided f (ctrlClear decided h c) := by
  simp only [ctrlClear_decided, BitVec.and_assoc, BitVec.and_comm (~~~(flagMask f))]

theorem ctrlClear_ctrlSet (f : FlagId) (c : Half) : ctrlClear decided f (ctrlSet f c) = ctrlClear decided f c := by
  apply BitVec.eq_of_getLsbD_eq
  intro k hk
  rw [ctrlClear_getLsbD rfl, ctrlClear_getLsbD rfl, ctrlSet_getLsbD]
  by_cases h : k = f.pos <;> simp [h]

/-- Clearing a flag that is clear changes no bit. -/
theorem ctrlClear_of_clear {f : FlagId} {c : Half} (hf : c.getLsbD f.pos = false) : ctrlClear decided f c = c := by
  apply BitVec.eq_of_getLsbD_eq
  intro k hk
  rw [ctrlClear_getLsbD rfl]
  by_cases h : k = f.pos <;> simp [h, hf]

/-- A flag that is clear, once set, adds its power of two to the control word. -/
theorem ctrlSet_toNat_of_clear {f : FlagId} {c : Half} (hf : c.getLsbD f.pos = false) : (ctrlSet f c).toNat = c.toNat + 2 ^ f.pos := by
  have hdisjoint : c &&& flagMask f = 0#16 := by
    apply BitVec.eq_of_getLsbD_eq
    intro k hk
    rw [BitVec.getLsbD_and, flagMask_getLsbD]
    by_cases h : k = f.pos <;> simp [h, hf]
  have hmask : (flagMask f).toNat = 2 ^ f.pos := by cases f <;> rfl
  rw [ctrlSet, ← BitVec.add_eq_or_of_and_eq_zero _ _ hdisjoint, BitVec.toNat_add_of_and_eq_zero hdisjoint, hmask]

/-- The subfields look at bits 15:6 alone (spec/30 R83). -/
theorem subfields_congr {c d : Half} (h : c >>> 6 = d >>> 6) : ctrlHlen c = ctrlHlen d ∧ ctrlReserved c = ctrlReserved d := by
  have hdiv : c.toNat / 64 = d.toNat / 64 := by
    have := congrArg BitVec.toNat h
    simpa only [BitVec.toNat_ushiftRight, Nat.shiftRight_eq_div_pow, Nat.reducePow] using this
  constructor <;> apply BitVec.eq_of_toNat_eq
  · rw [ctrlHlen_toNat, ctrlHlen_toNat]
    omega
  · rw [ctrlReserved_toNat, ctrlReserved_toNat, hdiv]

theorem ctrlSet_above (f : FlagId) (c : Half) : ctrlSet f c >>> 6 = c >>> 6 := by
  apply BitVec.eq_of_getLsbD_eq
  intro k hk
  have hpos := pos_lt f
  have hne : 6 + k ≠ f.pos := by omega
  simp [ctrlSet_getLsbD, hne]

theorem ctrlClear_above (f : FlagId) (c : Half) : ctrlClear decided f c >>> 6 = c >>> 6 := by
  apply BitVec.eq_of_getLsbD_eq
  intro k hk
  have hpos := pos_lt f
  have hne : 6 + k ≠ f.pos := by omega
  simp [ctrlClear_getLsbD (p := decided) rfl, hne]

theorem setFlag_sameButCtrl (f : FlagId) (g : Segment) : SameButCtrl g (setFlag f g) := ⟨rfl, rfl, rfl, rfl, rfl, rfl, rfl, rfl⟩

theorem clearFlag_sameButCtrl (p : Params) (f : FlagId) (g : Segment) : SameButCtrl g (clearFlag p f g) :=
  ⟨rfl, rfl, rfl, rfl, rfl, rfl, rfl, rfl⟩

theorem setFlag_setFlag (f : FlagId) (g : Segment) : setFlag f (setFlag f g) = setFlag f g := by
  simp only [setFlag, ctrlSet_ctrlSet]

/-- Settles O21: each law is that law of the control word, bit by bit or as a law of masks. -/
theorem flagLawsOfTheCodec : Obligations.FlagLawsOfTheCodec := by
  unfold Obligations.FlagLawsOfTheCodec
  intro g f h
  obtain ⟨hsetHlen, hsetRsv⟩ := subfields_congr (ctrlSet_above f g.ctrl)
  obtain ⟨hclearHlen, hclearRsv⟩ := subfields_congr (ctrlClear_above f g.ctrl)
  refine ⟨fun hne => ?_, ?_, ?_, hsetHlen, hsetRsv, hclearHlen, hclearRsv, setFlag_sameButCtrl f g, clearFlag_sameButCtrl _ f g,
    setFlag_setFlag f g, ?_, ?_, ?_, ?_⟩
  · have hpos : h.pos ≠ f.pos := fun he => hne (pos_inj.mp he.symm)
    simp [checkFlag_eq, ctrlSet_getLsbD, ctrlClear_getLsbD (p := decided) rfl, hpos]
  · simp [checkFlag_eq, ctrlSet_getLsbD]
  · simp [checkFlag_eq, ctrlClear_getLsbD (p := decided) rfl]
  · simp only [setFlag, ctrlSet_comm f h]
  · simp only [clearFlag, ctrlClear_ctrlClear]
  · simp only [clearFlag, ctrlClear_comm f h]
  · simp only [clearFlag, setFlag, ctrlClear_ctrlSet]

end Sys2Proof.Machine
end

section
/-! PROOFS. The checksum modulo `0xFFFF`: the folds keep the sum of the words up to a multiple of `0xFFFF`, so segments with one checksum
have sums that agree modulo it (spec/41 R130, R135, R136). -/

namespace Sys2Proof.Machine

/-- The eleven words that are not the checksum's own sum up to at most `0xAFFF5` (spec/41 R135). -/
theorem checksumWords_sum_le (g : Segment) : (checksumWords g).sum ≤ 0xAFFF5 := by
  obtain ⟨sport, dport, seq, ack, ctrl, win, csum, urg, opt⟩ := g
  have hhalves (v : Word) : lowHalf v + highHalf v ≤ 2 * 65535 := by
    have := v.isLt
    simp only [lowHalf, highHalf]
    omega
  have hseq := hhalves seq
  have hack := hhalves ack
  have hopt := hhalves opt
  simp only [checksumWords, List.sum_cons, List.sum_nil]
  omega

/-- The sum of the words fits the accumulator. -/
theorem checksumWords_sum_lt (g : Segment) : (checksumWords g).sum < 2 ^ 32 := Nat.lt_of_le_of_lt (checksumWords_sum_le g) (by decide)

theorem fold_mod (a : Nat) : fold a % 65535 = a % 65535 := by
  simp only [fold]
  omega

theorem fold_fold_lt {a : Nat} (h : a < 2 ^ 32) : fold (fold a) < 65536 := by
  simp only [fold]
  omega

/-- The checksum is the complement of the twice-folded sum of the words (spec/41 R130). -/
theorem checksum_toNat (g : Segment) : (checksum g).toNat = 65535 - fold (fold (checksumWords g).sum) := by
  have hlt := fold_fold_lt (checksumWords_sum_lt g)
  rw [checksum, checksumOf, accumulate_eq_sum (checksumWords_sum_lt g), BitVec.toNat_not, BitVec.toNat_ofNat,
    Nat.mod_eq_of_lt hlt]

/-- Segments with one checksum have word sums that agree modulo `0xFFFF` (spec/41 R136). -/
theorem sum_mod_of_checksum_eq {g h : Segment} (he : checksum g = checksum h) :
    (checksumWords g).sum % 65535 = (checksumWords h).sum % 65535 := by
  have hnat := congrArg BitVec.toNat he
  rw [checksum_toNat, checksum_toNat] at hnat
  have hg := fold_fold_lt (checksumWords_sum_lt g)
  have hh := fold_fold_lt (checksumWords_sum_lt h)
  have hfold : fold (fold (checksumWords g).sum) = fold (fold (checksumWords h).sum) := by omega
  rw [← fold_mod, ← fold_mod (fold _), hfold, fold_mod, fold_mod]

theorem checksumWords_sum_setFlag {f : FlagId} {g : Segment} (hf : flagSet g f = false) :
    (checksumWords (setFlag f g)).sum = (checksumWords g).sum + 2 ^ f.pos := by
  have hctrl := ctrlSet_toNat_of_clear hf
  simp only [checksumWords, setFlag, List.sum_cons, List.sum_nil, hctrl]
  omega

/-- A flag that is clear, once set, spoils the stamp (spec/40 R111). -/
theorem verify_setFlag_of_clear {f : FlagId} {g : Segment} (hv : verify g = true) (hf : flagSet g f = false) :
    verify (setFlag f g) = false := by
  rw [verify, beq_eq_false_iff_ne]
  intro he
  have hsame : checksum (setFlag f g) = checksum g := he.trans (beq_iff_eq.mp hv).symm
  have hmod := sum_mod_of_checksum_eq hsame
  rw [checksumWords_sum_setFlag hf] at hmod
  have hbit : 0 < 2 ^ f.pos ∧ 2 ^ f.pos < 65535 := by cases f <;> decide
  omega

end Sys2Proof.Machine
end

section
/-! PROOFS. The codec operations: what each writes, what a command leaves alone, and what reaches the environment (spec/40 R110 to
R122). -/

namespace Sys2Proof.Machine

/-! ### What an accepted command leaves alone -/

/-- A command that writes `SEG` writes nothing else but `STATUS.cmd_err`. -/
theorem mapSeg_frame {f : Segment → Segment} {s t : State} (h : t = mapSeg f (acceptCommand s)) :
    SameBytes s t ∧ SameExchange s t ∧ AcceptedStatus s t ∧ t.err = s.err ∧ t.res = s.res ∧ t.env = s.env := by
  subst h
  exact ⟨fun _ => rfl, (mapSeg_unitEffect f s).exchange, ⟨rfl, rfl⟩, rfl, rfl, rfl⟩

/-- A command that answers in `RES` writes nothing else but `STATUS.cmd_err`. -/
theorem setRes_frame {v : Word} {s t : State} (h : t = setRes v (acceptCommand s)) :
    t.seg = s.seg ∧ SameBytes s t ∧ SameExchange s t ∧ AcceptedStatus s t ∧ t.err = s.err ∧ t.env = s.env := by
  subst h
  exact ⟨rfl, fun _ => rfl, (setRes_unitEffect v s).exchange, ⟨rfl, rfl⟩, rfl, rfl⟩

/-! ### The operations on the control word -/

/-- An operand above 5 names no flag (spec/30 R95 (b)). -/
theorem withFlag_of_ge {opd : Nat} (h : 6 ≤ opd) (k : FlagId → Instr) : withFlag opd k = .rejected .notAFlagId := by
  match opd, h with
  | n + 6, _ => rfl

/-- Settles O13: the control word bit by bit; a changed bit moves the word sum by a power of two below `0xFFFF`. -/
theorem setFlagSetsExactlyOneBit : Obligations.SetFlagSetsExactlyOneBit := by
  unfold Obligations.SetFlagSetsExactlyOneBit
  refine ⟨fun f => by cases f <;> rfl, fun w a b ho hd => ?_, setFlag_setFlag, fun _ _ => verify_setFlag_of_clear, fun s f hn => ?_⟩
  · simp only [decode, decodeCommand, ho, withFlag_of_ge hd]
  · exact ⟨_, exec_setFlag f hn, fun k _ => ctrlSet_getLsbD f s.seg.ctrl k, setFlag_sameButCtrl f s.seg, mapSeg_frame rfl⟩

/-- Settles O14: the control word bit by bit. -/
theorem clearFlagClearsExactlyOneBit : Obligations.ClearFlagClearsExactlyOneBit := by
  unfold Obligations.ClearFlagClearsExactlyOneBit
  refine ⟨fun f => by cases f <;> rfl, fun f g hf => ?_, fun s f hn => ?_⟩
  · rw [clearFlag, ctrlClear_of_clear hf]
  · exact ⟨_, exec_clearFlag f hn, fun k _ => ctrlClear_getLsbD rfl f s.seg.ctrl k, clearFlag_sameButCtrl _ f s.seg, mapSeg_frame rfl⟩

/-- Settles O15: the test is the bit, and `RES` is its only effect. -/
theorem checkFlagReadsExactlyOneBit : Obligations.CheckFlagReadsExactlyOneBit := by
  unfold Obligations.CheckFlagReadsExactlyOneBit
  refine ⟨fun f => by cases f <;> rfl, checkFlag_eq, fun s f hn => ⟨_, exec_checkFlag f hn, ?_, setRes_frame rfl⟩⟩
  rw [setRes_res, checkFlag_eq, boolWord]

/-- Settles O16: the header length is the control word divided by 4096. -/
theorem getOffReadsTheTopFourBits : Obligations.GetOffReadsTheTopFourBits := by
  unfold Obligations.GetOffReadsTheTopFourBits
  refine ⟨rfl, fun s hn => ⟨_, exec_getOff hn, ?_, setRes_frame rfl⟩⟩
  rw [setRes_res, BitVec.toNat_setWidth_of_le (by decide), ctrlHlen_toNat]

/-- Settles O17: the reserved bits are the control word divided by 64, modulo 64. -/
theorem getRsvReadsTheSixReservedBits : Obligations.GetRsvReadsTheSixReservedBits := by
  unfold Obligations.GetRsvReadsTheSixReservedBits
  refine ⟨rfl, fun e w hw => ?_, fun s hn => ⟨_, exec_getRsv hn, ?_, setRes_frame rfl⟩⟩
  · obtain ⟨-, hrsv, -⟩ := builtControl_fields hw
    exact hrsv
  · rw [setRes_res, BitVec.toNat_setWidth_of_le (by decide), ctrlReserved_toNat]

/-! ### The operations on the whole segment -/

/-- `CREATE` leaves the fresh segment of the reduced draw (spec/40 R110). -/
theorem createSeg_acceptCommand_seg (sp dp : Half) (s : State) :
    (createSeg decided sp dp (acceptCommand s)).seg = fresh sp dp (isn decided (drawValue s)) := rfl

/-- Every flag of a fresh segment is clear, `hlen` is 6 and the reserved bits are 0 (spec/40 R122). -/
theorem fresh_subfields (sp dp : Half) (q : Word) :
    (∀ f, flagSet (fresh sp dp q) f = false) ∧ ctrlHlen (fresh sp dp q).ctrl = 6#4 ∧ ctrlReserved (fresh sp dp q).ctrl = 0#6 := by
  have hflag (f : FlagId) : (0x6000#16).getLsbD f.pos = false := by cases f <;> rfl
  have hhlen : ctrlHlen 0x6000#16 = 6#4 := by decide
  have hrsv : ctrlReserved 0x6000#16 = 0#6 := by decide
  exact ⟨hflag, hhlen, hrsv⟩

/-- A drawn number is below `ISN_MOD`, and so its successor does not wrap (spec/70 R230). -/
theorem isn_succ_toNat (s : State) : (isn decided (drawValue s) + 1#32).toNat = (isn decided (drawValue s)).toNat + 1 := by
  have hbelow := drawn_below s
  rw [BitVec.toNat_add, BitVec.toNat_ofNat]
  omega

/-- Settles O12: the segment is the fresh one of the draw modulo `ISN_MOD`; the draw is the only other effect. -/
theorem createBuildsAFreshSegment : Obligations.CreateBuildsAFreshSegment := by
  unfold Obligations.CreateBuildsAFreshSegment
  intro s sp dp hn
  obtain ⟨hflags, hhlen, hrsv⟩ := fresh_subfields sp dp (isn decided (drawValue s))
  refine ⟨_, exec_create sp dp hn, ?_⟩
  rw [createSeg_acceptCommand_seg]
  refine ⟨rfl, rfl, isn_decided_toNat (drawValue s), isn_succ_toNat s, rfl, rfl, hflags, hhlen, hrsv, rfl, rfl, rfl, rfl, ?_⟩
  simp [createSeg, SameBytes, SameExchange, AcceptedStatus, SameChannel, SameConditions]

/-- Settles O18: the fields read from the image are those of `SEG`, and `unpack` reads each from its bytes. -/
theorem packStoresTheLittleEndianImage : Obligations.PackStoresTheLittleEndianImage := by
  unfold Obligations.PackStoresTheLittleEndianImage
  refine ⟨rfl, fun s hn => ⟨_, exec_pack hn, ?_, ?_, rfl, ⟨rfl, rfl, rfl, rfl, rfl, rfl, rfl⟩, ⟨rfl, rfl⟩, rfl, rfl, rfl⟩⟩
  · simpa only [unpack_pack] using wireSegment_unpack (pack .le s.seg)
  · simp only [pack_wf]

/-- Settles O19: `unpack` reads each field from its bytes, whatever they are. -/
theorem unpackLoadsTheLittleEndianFields : Obligations.UnpackLoadsTheLittleEndianFields := by
  unfold Obligations.UnpackLoadsTheLittleEndianFields
  exact ⟨rfl, fun s hn => ⟨_, exec_unpack hn, wireSegment_unpack s.buf, mapSeg_frame (f := fun _ => unpack .le s.buf) rfl⟩⟩

/-- A list filtered and mapped, element by element. -/
theorem map_filter_cons {α β : Type} (p : α → Bool) (n : α → β) (a : α) (as : List α) :
    ((a :: as).filter p).map n = (if p a then [n a] else []) ++ (as.filter p).map n := by
  cases h : p a <;> simp [h]

/-- The names in a report are those of the set flags, the lowest flag first (spec/10 R33; spec/40 R118). -/
theorem report_names (g : Segment) :
    (report g).names = (if flagSet g .fin then ["FIN"] else []) ++ (if flagSet g .syn then ["SYN"] else []) ++
      (if flagSet g .rst then ["RST"] else []) ++ (if flagSet g .psh then ["PSH"] else []) ++
      (if flagSet g .ack then ["ACK"] else []) ++ (if flagSet g .urg then ["URG"] else []) := by
  have hset (f : FlagId) : checkFlag f g = flagSet g f := checkFlag_eq f g
  simp only [report, allFlags, map_filter_cons, hset, flagName, List.filter_nil, List.map_nil, List.append_nil, List.append_assoc]

/-- Settles O22: the record's subfields are those of the control word as numbers, its names those of `report_names`. -/
theorem reportEmitsOneRecord : Obligations.ReportEmitsOneRecord := by
  unfold Obligations.ReportEmitsOneRecord
  refine ⟨rfl, fun s hn => ⟨_, report s.seg, exec_report hn, rfl, rfl, rfl, rfl, rfl, rfl, rfl, rfl, rfl, ctrlHlen_toNat _,
    ctrlReserved_toNat _, ctrlFlags_toNat _, report_names s.seg, rfl, fun _ => rfl, ?_⟩⟩
  simp [SameExchange, AcceptedStatus, SameChannel, SameConditions]

/-! ### The codec and the environment -/

theorem isUnitOperation_of_isCodec {i : Instr} (h : isCodec i = true) : isUnitOperation i = true := by
  cases i
  case openI | openR | closeI | closeR | segSyn | segSynAck | segAck | segFin => cases h
  all_goals rfl

theorem drawTaken_acceptCommand_env (s : State) : (drawTaken (acceptCommand s)).env = (drawTaken s).env := by
  simp only [drawTaken, acceptCommand_env]
  split <;> rfl

/-- An accepted codec operation reaches the environment by one draw, by one record, or not at all (spec/40 R121). -/
theorem exec_codec_env {i : Instr} {s t : State} (hi : isCodec i = true) (hn : s.status.run ≠ .busy) (he : exec i s = .next t) :
    (∃ a b, i = .create a b ∧ t.env = (drawTaken s).env) ∨ (i = .report ∧ t.env = (emitTrace .rpt s).env) ∨
      ((∀ a b, i ≠ .create a b) ∧ i ≠ .report ∧ t.env = s.env) := by
  cases i
  case checksum | stamp | verify | openI | openR | closeI | closeR | segSyn | segSynAck | segAck | segFin => cases hi
  case create a b =>
    cases he.symm.trans (exec_create a b hn)
    exact .inl ⟨a, b, rfl, drawTaken_acceptCommand_env s⟩
  case report =>
    cases he.symm.trans (exec_report hn)
    exact .inr (.inl ⟨rfl, rfl⟩)
  all_goals refine .inr (.inr ⟨nofun, nofun, ?_⟩)
  case setFlag f => cases he.symm.trans (exec_setFlag f hn); rfl
  case clearFlag f => cases he.symm.trans (exec_clearFlag f hn); rfl
  case checkFlag f => cases he.symm.trans (exec_checkFlag f hn); rfl
  case getOff => cases he.symm.trans (exec_getOff hn); rfl
  case getRsv => cases he.symm.trans (exec_getRsv hn); rfl
  case pack => cases he.symm.trans (exec_pack hn); rfl
  case unpack => cases he.symm.trans (exec_unpack hn); rfl

/-- Settles O23: a refusal changes `STATUS.cmd_err` alone; an accepted unit operation keeps the role state, and reaches the environment
as `exec_codec_env` lists. -/
theorem codecOperationsTouchNothingElse : Obligations.CodecOperationsTouchNothingElse := by
  unfold Obligations.CodecOperationsTouchNothingElse
  intro s t i hi he
  have hu := isUnitOperation_of_isCodec hi
  by_cases hb : s.status.run = .busy
  · cases he.symm.trans (exec_command_refused (isCommand_of_unitOperation hu) hb)
    simp [SameChannel, SameConditions, SameExchange, hb]
  · obtain ⟨t', ht', hunit⟩ := exec_unitOperation hu hb
    cases he.symm.trans ht'
    obtain ⟨hexchange, hrun, herr, -⟩ := hunit
    rcases exec_codec_env hi hb he with ⟨a, b, rfl, henv⟩ | ⟨rfl, henv⟩ | ⟨hcreate, hreport, henv⟩
    case inr.inr => simp [SameChannel, SameConditions, hexchange, hrun, herr, henv, hcreate, hreport]
    all_goals simp [SameChannel, SameConditions, hexchange, hrun, herr, henv]

end Sys2Proof.Machine
end

section
/-! PROOFS. The checksum as a number: the twice-folded sum is the sum's representative modulo `0xFFFF`, 0 for the sum 0 alone (spec/41
R130, R135, R136). -/

namespace Sys2Proof.Machine

theorem lowHalf_lt (v : Word) : lowHalf v < 2 ^ 16 := Nat.mod_lt _ (by decide)

theorem highHalf_lt (v : Word) : highHalf v < 2 ^ 16 := Nat.div_lt_of_lt_mul v.isLt

theorem checksumWords_lt (g : Segment) : ∀ w ∈ checksumWords g, w < 2 ^ 16 := by
  simp only [checksumWords, List.forall_mem_cons]
  exact ⟨g.sport.isLt, g.dport.isLt, lowHalf_lt g.seq, highHalf_lt g.seq, lowHalf_lt g.ack, highHalf_lt g.ack, g.ctrl.isLt, g.win.isLt,
    Nat.two_pow_pos 16, g.urg.isLt, lowHalf_lt g.opt, highHalf_lt g.opt, List.forall_mem_nil _⟩

/-- The first fold of any 32-bit value (spec/41 R135). -/
theorem fold_le {a : Nat} (h : a < 2 ^ 32) : fold a ≤ 0x1FFFE := by
  simp only [fold]
  omega

/-- The first fold of a sum of words (spec/41 R135). -/
theorem fold_le_of_words_sum {a : Nat} (h : a ≤ 0xAFFF5) : fold a ≤ 0x10008 := by
  simp only [fold]
  omega

theorem fold_eq_zero_iff {a : Nat} : fold a = 0 ↔ a = 0 := by
  simp only [fold]
  omega

theorem fold_fold_eq_zero_iff {a : Nat} : fold (fold a) = 0 ↔ a = 0 := fold_eq_zero_iff.trans fold_eq_zero_iff

/-- Two folds give the representative in 1 to `0xFFFF` (spec/41 R136). -/
theorem fold_fold_eq {a : Nat} (h : a < 2 ^ 32) (h0 : a ≠ 0) : fold (fold a) = (a - 1) % 0xFFFF + 1 := by
  have hlt := fold_fold_lt h
  have hpos : fold (fold a) ≠ 0 := fun he => h0 (fold_fold_eq_zero_iff.mp he)
  have hmod : fold (fold a) % 65535 = a % 65535 := by rw [fold_mod, fold_mod]
  omega

theorem checksumOf_toNat {ws : List Nat} (h : ws.sum < 2 ^ 32) : (checksumOf ws).toNat = 0xFFFF - fold (fold ws.sum) := by
  rw [checksumOf, accumulate_eq_sum h, BitVec.toNat_not, BitVec.toNat_ofNat, Nat.mod_eq_of_lt (fold_fold_lt h)]

theorem checksum_eq_iff_fold (g h : Segment) :
    checksum g = checksum h ↔ fold (fold (checksumWords g).sum) = fold (fold (checksumWords h).sum) := by
  have hg := fold_fold_lt (checksumWords_sum_lt g)
  have hh := fold_fold_lt (checksumWords_sum_lt h)
  rw [← BitVec.toNat_inj, checksum_toNat, checksum_toNat]
  omega

theorem checksum_eq_ones_iff (g : Segment) : checksum g = 0xFFFF#16 ↔ (checksumWords g).sum = 0 := by
  rw [← BitVec.toNat_inj, checksum_toNat, BitVec.toNat_ofNat, ← fold_fold_eq_zero_iff]
  have hlt := fold_fold_lt (checksumWords_sum_lt g)
  omega

theorem checksum_eq_zero_iff (g : Segment) : checksum g = 0#16 ↔ 0 < (checksumWords g).sum ∧ (checksumWords g).sum % 0xFFFF = 0 := by
  have hlt := fold_fold_lt (checksumWords_sum_lt g)
  have hfold := fold_fold_eq (checksumWords_sum_lt g)
  rw [← BitVec.toNat_inj, checksum_toNat, BitVec.toNat_ofNat]
  by_cases h0 : (checksumWords g).sum = 0
  · simp [h0, fold]
  · have := hfold h0
    omega

theorem verify_iff (g : Segment) : verify g = true ↔ checksum g = g.csum := beq_iff_eq

/-- Settles O26: the range is that of `fold_fold_eq`, complemented. -/
theorem checksumRangeOfResults : Obligations.ChecksumRangeOfResults := by
  unfold Obligations.ChecksumRangeOfResults
  intro g
  simp only [accumulate_eq_sum (checksumWords_sum_lt g)]
  exact ⟨fold_fold_eq_zero_iff, fold_fold_eq (checksumWords_sum_lt g), checksum_toNat g, checksum_eq_ones_iff g, checksum_eq_zero_iff g⟩

/-- Settles O27: the bounds of the words, of their sum and of each fold; the words `0xFFFF`, `0xFFFF` and 1 need the second fold. -/
theorem accumulatorAndFoldBounds : Obligations.AccumulatorAndFoldBounds := by
  unfold Obligations.AccumulatorAndFoldBounds
  refine ⟨fun g => ?_, fun a ha => ⟨fold_le ha, Nat.le_of_lt_succ (fold_fold_lt ha)⟩,
    ⟨0xFFFF#16, 0xFFFF#16, 1#32, 0#32, 0#16, 0#16, 0#16, 0#16, 0#32⟩, by decide⟩
  rw [accumulate_eq_sum (checksumWords_sum_lt g)]
  exact ⟨checksumWords_lt g, rfl, checksumWords_sum_le g, fold_le_of_words_sum (checksumWords_sum_le g),
    Nat.le_of_lt_succ (fold_fold_lt (checksumWords_sum_lt g))⟩

/-- Segments whose word sums differ by `0xFFFF` have one checksum, unless the smaller sum is 0 (spec/41 R134 (3)). -/
theorem checksum_eq_iff_of_sum_add {g h : Segment} (hs : (checksumWords h).sum = (checksumWords g).sum + 0xFFFF) :
    checksum h = checksum g ↔ (checksumWords g).sum ≠ 0 := by
  have hh := fold_fold_eq (checksumWords_sum_lt h) (by omega)
  have hg := fold_fold_eq (checksumWords_sum_lt g)
  rw [checksum_eq_iff_fold, hh, hs]
  by_cases h0 : (checksumWords g).sum = 0
  · simp [h0, fold]
  · rw [hg h0]
    omega

theorem exists_ne_zero_iff_sum {ws : List Nat} : (∃ w ∈ ws, w ≠ 0) ↔ ws.sum ≠ 0 := by
  simp only [← Nat.pos_iff_ne_zero, List.sum_pos_iff_exists_pos_nat]

/-- Settles O31: by `checksum_eq_iff_of_sum_add`; `urg` raised from 0 to `0xFFFF` raises the sum by `0xFFFF`. -/
theorem wholeWordChangeIsABlindSpot : Obligations.WholeWordChangeIsABlindSpot := by
  unfold Obligations.WholeWordChangeIsABlindSpot
  simp only [exists_ne_zero_iff_sum, verify_iff]
  refine ⟨fun g h => checksum_eq_iff_of_sum_add, fun g hu hv h0 => ?_⟩
  have hs : (checksumWords { g with urg := 0xFFFF#16 }).sum = (checksumWords g).sum + 0xFFFF := by
    simp only [checksumWords, hu, List.sum_cons, List.sum_nil, BitVec.toNat_ofNat]
    omega
  exact ((checksum_eq_iff_of_sum_add hs).mpr h0).trans hv

end Sys2Proof.Machine
end

section
/-! PROOFS. The checksum over the wire image: its words sum up to what the fields sum up to in either byte order, and one byte written
moves one word by less than `0xFFFF` (spec/41 R130, R131, R134). -/

namespace Sys2Proof.Machine

/-! ### The words of an image -/

/-- The two words of a 32-bit field are its halves, in an order that depends on the byte order. -/
theorem halves_field32 (o : WireOrder) (m : Memory) (a : Nat) :
    lowHalf (field32 o m a) + highHalf (field32 o m a) = memRead o m a 2 + memRead o m (a + 2) 2 := by
  have hlt (k : Nat) := (Memory.read m k).isLt
  have h0 := hlt a
  have h1 := hlt (a + 1)
  have h2 := hlt (a + 2)
  have h3 := hlt (a + 3)
  rw [lowHalf, highHalf, field32_toNat]
  cases o
  · simp only [memRead_four_le, memRead_two_le, Nat.add_assoc, Nat.reduceAdd]
    omega
  · simp only [memRead_four_be, memRead_two_be, Nat.add_assoc, Nat.reduceAdd]
    omega

theorem range_twelve : List.range 12 = [0, 1, 2, 3, 4, 5, 6, 7, 8, 9, 10, 11] := by decide

/-- The words of a memory sum up to the words of the segment it holds (spec/41 R131). -/
theorem imageWords_sum (o : WireOrder) (m : Memory) :
    ((List.range 12).map (imageWord o m)).sum = (checksumWords (unpack o m)).sum := by
  have hseq := halves_field32 o m 4
  have hack := halves_field32 o m 8
  have hopt := halves_field32 o m 20
  simp only [range_twelve, imageWord, checksumWords, unpack, field16_toNat, List.map_cons, List.map_nil, List.sum_cons, List.sum_nil,
    Nat.reduceMul, Nat.reduceAdd, Nat.reduceEqDiff, if_true, if_false] at hseq hack hopt ⊢
  omega

theorem imageWords_sum_lt (o : WireOrder) (m : Memory) : ((List.range 12).map (imageWord o m)).sum < 2 ^ 32 := by
  rw [imageWords_sum]
  exact checksumWords_sum_lt _

/-- Settles O24: both sums are one number, and neither overflows the accumulator. -/
theorem checksumByteFormEqualsFieldForm : Obligations.ChecksumByteFormEqualsFieldForm := by
  unfold Obligations.ChecksumByteFormEqualsFieldForm
  intro o g
  apply BitVec.eq_of_toNat_eq
  rw [checksumImage, checksumOf_toNat (imageWords_sum_lt o _), imageWords_sum, unpack_pack, checksum_toNat]

/-! ### One byte written -/

theorem read_write_same {m : Memory} (hm : Memory.wf m = true) (k : Nat) (v : Byte) : Memory.read (Memory.write m k v) k = v := by
  rw [read_write v k hm, if_pos rfl]

theorem read_write_other {m : Memory} (hm : Memory.wf m = true) {k a : Nat} (v : Byte) (h : k ≠ a) :
    Memory.read (Memory.write m k v) a = Memory.read m a := by
  rw [read_write v a hm, if_neg h]

/-- A byte written outside a field leaves the field. -/
theorem memRead_write_outside (o : WireOrder) {m : Memory} (hm : Memory.wf m = true) (v : Byte) {k addr n : Nat}
    (hk : k < addr ∨ addr + n ≤ k) : memRead o (Memory.write m k v) addr n = memRead o m addr n := by
  have hread : ∀ i ∈ List.range n, Memory.read (Memory.write m k v) (addr + i) = Memory.read m (addr + i) := by
    intro i hi
    have := List.mem_range.mp hi
    exact read_write_other hm v (by omega)
  rw [memRead, memRead, List.map_congr_left fun i hi => by rw [hread i hi]]

/-- Another byte written into a word changes the word, and not by a multiple of `0xFFFF`. -/
theorem memRead_write_within (o : WireOrder) {m : Memory} (hm : Memory.wf m = true) {v : Byte} {k : Nat} (hv : v ≠ Memory.read m k)
    {i : Nat} (hi : k / 2 = i) : memRead o (Memory.write m k v) (2 * i) 2 % 65535 ≠ memRead o m (2 * i) 2 % 65535 := by
  have hne : v.toNat ≠ (Memory.read m k).toNat := fun h => hv (BitVec.eq_of_toNat_eq h)
  have hlt := v.isLt
  have hold := (Memory.read m k).isLt
  have hk : k = 2 * i ∨ k = 2 * i + 1 := by omega
  rcases hk with rfl | rfl <;> cases o
  all_goals
    simp (disch := omega) only [memRead_two_le, memRead_two_be, read_write_same hm, read_write_other hm]
    omega

/-- Sums that differ in one term differ modulo `0xFFFF` if that term does. -/
theorem sum_range_mod_ne {f h : Nat → Nat} {n j : Nat} (hj : j < n) (heq : ∀ i, i ≠ j → f i = h i)
    (hne : f j % 65535 ≠ h j % 65535) : ((List.range n).map f).sum % 65535 ≠ ((List.range n).map h).sum % 65535 := by
  induction n with
  | zero => exact absurd hj (Nat.not_lt_zero j)
  | succ n ih =>
    simp only [List.range_succ, List.map_append, List.sum_append_nat, List.map_cons, List.map_nil, List.sum_singleton]
    rcases Nat.lt_succ_iff_lt_or_eq.mp hj with hlt | rfl
    · have hfirst := ih hlt
      rw [heq n (Nat.ne_of_gt hlt)]
      omega
    · have hfirst : (List.range j).map f = (List.range j).map h :=
        List.map_congr_left fun i hi => heq i (Nat.ne_of_lt (List.mem_range.mp hi))
      rw [hfirst]
      omega

/-- A byte of the checksum's own word is not summed. -/
theorem checksum_write_csum (o : WireOrder) {m : Memory} (hm : Memory.wf m = true) (v : Byte) {k : Nat} (hk : k / 2 = 8) :
    checksum (unpack o (Memory.write m k v)) = checksum (unpack o m) := by
  have hword (i : Nat) : imageWord o (Memory.write m k v) i = imageWord o m i := by
    unfold imageWord
    split
    · rfl
    · exact memRead_write_outside o hm v (by omega)
  rw [checksum_eq_iff_fold, ← imageWords_sum, ← imageWords_sum, funext hword]

/-- Another byte in a summed word gives another checksum. -/
theorem checksum_write_ne (o : WireOrder) {m : Memory} (hm : Memory.wf m = true) {v : Byte} {k : Nat} (hv : v ≠ Memory.read m k)
    (h24 : k < 24) (hk : k / 2 ≠ 8) : checksum (unpack o (Memory.write m k v)) ≠ checksum (unpack o m) := by
  have hother (i : Nat) (hi : i ≠ k / 2) : imageWord o (Memory.write m k v) i = imageWord o m i := by
    rw [imageWord, imageWord, memRead_write_outside o hm v (by omega)]
  have hword : imageWord o (Memory.write m k v) (k / 2) % 65535 ≠ imageWord o m (k / 2) % 65535 := by
    rw [imageWord, imageWord, if_neg hk, if_neg hk]
    exact memRead_write_within o hm hv rfl
  have hsum := sum_range_mod_ne (n := 12) (by omega) hother hword
  rw [imageWords_sum, imageWords_sum] at hsum
  exact fun he => hsum (sum_mod_of_checksum_eq he)

theorem csum_unpack_write_ne (o : WireOrder) {m : Memory} (hm : Memory.wf m = true) {v : Byte} {k : Nat} (hv : v ≠ Memory.read m k)
    (hk : k / 2 = 8) : (unpack o (Memory.write m k v)).csum ≠ (unpack o m).csum := by
  intro he
  have hnat : memRead o (Memory.write m k v) 16 2 = memRead o m 16 2 := by
    rw [← field16_toNat, ← field16_toNat]
    exact congrArg BitVec.toNat he
  exact memRead_write_within o hm hv hk (congrArg (· % 65535) hnat)

theorem csum_unpack_write (o : WireOrder) {m : Memory} (hm : Memory.wf m = true) (v : Byte) {k : Nat} (hk : k / 2 ≠ 8) :
    (unpack o (Memory.write m k v)).csum = (unpack o m).csum :=
  congrArg (BitVec.ofNat 16) (memRead_write_outside o hm v (by omega))

/-- Settles O30: a changed checksum byte changes the checksum field alone, any other byte the checksum alone. -/
theorem oneChangedByteIsDetected : Obligations.OneChangedByteIsDetected := by
  unfold Obligations.OneChangedByteIsDetected
  intro o g k v h24 hv
  have hm := pack_wf o (stamp g)
  have hstamped : checksum (unpack o (pack o (stamp g))) = (unpack o (pack o (stamp g))).csum := by
    rw [unpack_pack, checksum_stamp, stamp_csum]
  rw [verify, beq_eq_false_iff_ne]
  by_cases hk : k / 2 = 8
  · rw [checksum_write_csum o hm v hk, hstamped]
    exact (csum_unpack_write_ne o hm hv hk).symm
  · rw [csum_unpack_write o hm v hk, ← hstamped]
    exact checksum_write_ne o hm hv h24 hk

end Sys2Proof.Machine
end

section
/-! PROOFS. The three commands of the checksum engine (spec/41 R130 to R133). -/

namespace Sys2Proof.Machine

theorem checksumImage_eq (o : WireOrder) (g : Segment) : checksumImage o g = checksum g := checksumByteFormEqualsFieldForm o g

/-- Settles O25: what holds of the field form holds of the wire image, by O24. -/
theorem checksumCommandLeavesTheChecksumInRes : Obligations.ChecksumCommandLeavesTheChecksumInRes := by
  unfold Obligations.ChecksumCommandLeavesTheChecksumInRes
  refine ⟨rfl, fun g v => ?_, fun g => accumulate_eq_sum (imageWords_sum_lt .le _), ?_, ?_, fun s hn => ⟨_, exec_checksum hn, ?_, ?_,
    setRes_frame rfl⟩⟩
  · rw [checksumImage_eq, checksumImage_eq, checksum_csum]
  · rw [checksumImage_eq]
    decide
  · rw [checksumImage_eq]
    decide
  · rw [setRes_res, BitVec.toNat_setWidth_of_le (by decide), checksumImage_eq]
  · have hsum := imageWords_sum_lt .le (pack .le s.seg)
    have hbytes := checksumOf_toNat hsum
    rw [← accumulate_eq_sum hsum] at hbytes
    exact hbytes

theorem checksum_eq_ones_iff_words (g : Segment) : checksum g = 0xFFFF#16 ↔ ∀ w ∈ checksumWords g, w = 0 :=
  (checksum_eq_ones_iff g).trans List.sum_eq_zero_iff_forall_eq_nat

theorem stamp_sameButCsum (g : Segment) : SameButCsum g (stamp g) := ⟨rfl, rfl, rfl, rfl, rfl, rfl, rfl, rfl⟩

theorem stamp_stamp (g : Segment) : stamp (stamp g) = stamp g := by
  simp only [stamp, checksum_csum]

/-- A control word that is not 0 is a summed word that is not 0. -/
theorem checksum_ne_ones_of_ctrl {g : Segment} (h : g.ctrl ≠ 0#16) : checksum g ≠ 0xFFFF#16 := fun he =>
  h <| BitVec.eq_of_toNat_eq <| (checksum_eq_ones_iff_words g).mp he g.ctrl.toNat (by simp [checksumWords])

/-- The control word of a built segment has a header length (spec/30 R87). -/
theorem builtControl_ne_zero {e : ExStep} {w : Half} (h : builtControl e = some w) : w ≠ 0#16 := by
  obtain ⟨hhlen, -⟩ := builtControl_fields h
  rintro rfl
  exact absurd hhlen (by decide)

/-- Settles O28: the stamp is the checksum, which the checksum field does not enter. -/
theorem stampWritesTheChecksum : Obligations.StampWritesTheChecksum := by
  unfold Obligations.StampWritesTheChecksum
  refine ⟨rfl, fun g => ⟨stamp_stamp g, ?_, stamp_sameButCsum g, ?_, ?_⟩, fun _ _ => builtControl_ne_zero, fun s hn =>
    ⟨_, exec_stamp hn, stamp_csum s.seg, stamp_sameButCsum s.seg, mapSeg_frame rfl⟩⟩
  · rw [verify_iff, checksum_stamp, stamp_csum]
  · rw [stamp_csum]
    exact checksum_eq_ones_iff_words g
  · rw [stamp_csum]
    exact checksum_ne_ones_of_ctrl

/-- Settles O29: `RES` is the verdict as 1 or 0, and words all 0 have the checksum `0xFFFF`. -/
theorem verifyComparesTheChecksumField : Obligations.VerifyComparesTheChecksumField := by
  unfold Obligations.VerifyComparesTheChecksumField
  refine ⟨rfl, fun g h0 => ?_, fun s hn => ⟨_, exec_verify hn, ?_, setRes_frame rfl⟩⟩
  · rw [verify_iff, (checksum_eq_ones_iff_words g).mpr h0, eq_comm]
  · simp only [setRes_res, boolWord, verify_iff]

end Sys2Proof.Machine
end

section
/-! PROOFS. Entry into the open exchange, and where a turn of the block can lead (spec/42 R140, R149). -/

namespace Sys2Proof.Machine

/-- Settles O34: an accepted entry writes the role state and the status, and the two machines begin at their first steps. -/
theorem openEntryStartsTheExchange : Obligations.OpenEntryStartsTheExchange := by
  unfold Obligations.OpenEntryStartsTheExchange
  intro s lp pp hn
  refine ⟨⟨_, exec_openI lp pp hn, ?_⟩, ⟨_, exec_openR lp pp hn, ?_⟩⟩
  all_goals simp [activeStep, stepAt, SameBytes]

/-- A turn of the block leaves the state alone while no exchange runs, and else is the step the sequence names. -/
theorem turn_cases {u s t : State} (ht : OwnTurn u s) (hs : step u = .next t) :
    (s.status.run ≠ .busy ∧ t = s) ∨ ∃ e, activeStep s = some e ∧ t = ownStep decided e s := by
  have hf := fetch_turn ht
  by_cases hb : s.status.run = .busy
  · cases he : stepAt s.op s.role s.stepIx with
    | none => cases hs.symm.trans (step_of_stuck (hf.trans (fetchOwn_stuck hb he)))
    | some e =>
      have ha : activeStep s = some e := by simp only [activeStep, if_pos hb, he]
      cases hs.symm.trans (step_turn ht ha)
      exact .inr ⟨e, ha, rfl⟩
  · cases hs.symm.trans (step_of_plain (hf.trans (fetchOwn_idle hb)))
    exact .inl ⟨hb, rfl⟩

/-- A step that succeeds ends the exchange where it is the last of its machine, and goes on to the next index where it is not
(spec/10 R26). -/
theorem endOf_forward {o : ExOp} {r : Role} {k : StepIx} {e : ExStep} (h : stepAt o r k = some e) :
    (lastStep e = true ∧ endOf e = finish) ∨ (lastStep e = false ∧ ∃ n, k.succ? = some n ∧ endOf e = gotoStep n) := by
  cases o <;> cases r <;> cases k <;> cases h
  case openEx.initiator.s2 | openEx.responder.s2 | closeEx.initiator.s3 | closeEx.responder.s3 => exact .inl ⟨rfl, rfl⟩
  all_goals exact .inr ⟨rfl, _, rfl, rfl⟩

/-- Settles O51: a step that is not blocked ends as a success of it does, which is forward by the step tables, or raises. -/
theorem controlTransferIsForwardOnly : Obligations.ControlTransferIsForwardOnly := by
  unfold Obligations.ControlTransferIsForwardOnly
  intro u s t ht hs
  rcases turn_cases ht hs with ⟨hn, rfl⟩ | ⟨e, ha, rfl⟩
  · exact .inl ⟨rfl, .inl hn⟩
  obtain ⟨hbusy, he⟩ := activeStep_eq ha
  rcases ownStep_cases e s with ⟨hb, heq⟩ | ⟨y, hc, -, -, hend⟩
  · exact .inl ⟨heq, .inr ⟨e, ha, hb⟩⟩
  refine .inr ⟨e, ha, ?_⟩
  rcases hend with ⟨hok, -⟩ | ⟨k, -, i, hfail⟩
  · rcases endOf_forward he with ⟨hlast, hd⟩ | ⟨hlast, n, hn, hd⟩
    · exact .inr (.inl (by simp [hok, hd, hlast, hc.stepIx]))
    · exact .inl (by simp [hok, hd, hlast, hn, hc.status, hbusy])
  · exact .inr (.inr (by simp [hfail, hc.stepIx]))

end Sys2Proof.Machine
end

section
/-! PROOFS. What a send step builds, hands to the channel and leaves alone (spec/20 R71; spec/42 R141, R143, R146; spec/43 R167). -/

namespace Sys2Proof.Machine

/-! ### The segments built -/

/-- A stamped segment with the given ports, numbers and control word, its placeholders 0 (spec/30 R87, R89). -/
def builtSegment (sport dport : Half) (seq ack : Word) (ctrl : Half) : Segment :=
  stamp ⟨sport, dport, seq, ack, ctrl, 0#16, 0#16, 0#16, 0#32⟩

theorem built_builtSegment (s : State) (seq ack : Word) (ctrl : Half) :
    Built s seq ack ctrl (builtSegment s.localPort s.peerPort seq ack ctrl) := by
  simp [Built, builtSegment]

theorem verify_builtSegment (sport dport : Half) (seq ack : Word) (ctrl : Half) :
    verify (builtSegment sport dport seq ack ctrl) = true := by
  simp [verify_iff, builtSegment]

theorem sendBuild_oiSendRequest_seg (s : State) :
    (sendBuild decided .oiSendRequest s).seg = builtSegment s.localPort s.peerPort (isn decided (drawValue s)) 0#32 0x6002#16 := by
  have syn : ctrlSet .syn 0x6000#16 = 0x6002#16 := by decide
  simp [sendBuild, builtSegment, setFlag, fresh, syn]

theorem sendBuild_orSendGrant_seg (s : State) :
    (sendBuild decided .orSendGrant s).seg =
      builtSegment s.localPort s.peerPort (isn decided (drawValue s)) (s.peerSeq + 1#32) 0x6012#16 := by
  have syn : ctrlSet .syn 0x6000#16 = 0x6002#16 := by decide
  have ack : ctrlSet .ack 0x6002#16 = 0x6012#16 := by decide
  simp [sendBuild, builtSegment, setFlag, fresh, syn, ack]

theorem sendBuild_oiSendAck_seg (s : State) :
    (sendBuild decided .oiSendAck s).seg = builtSegment s.localPort s.peerPort (s.localSeq + 1#32) (s.peerSeq + 1#32) 0x6010#16 := by
  simp [sendBuild, builtSegment, setFlag, fresh, ctrlSet_ack_fresh]

/-- The two final acknowledgments are built alike (spec/43 R164). -/
theorem sendBuild_ciSendAck2 (p : Params) : sendBuild p .ciSendAck2 = sendBuild p .oiSendAck := rfl

theorem sendBuild_crSendAck_seg (s : State) :
    (sendBuild decided .crSendAck s).seg =
      builtSegment s.localPort s.peerPort (isn decided (drawValue s)) (s.peerSeq + 1#32) 0x6010#16 := by
  simp [sendBuild, builtSegment, setFlag, fresh, ctrlSet_ack_fresh]

/-! ### From the built segment to the channel -/

/-- What building a segment leaves alone, a draw apart: everything but `SEG` and `LOCAL_SEQ`. -/
structure Prepares (s x : State) : Prop where
  carries : Carries s x
  peerSeq : x.peerSeq = s.peerSeq
  channel : SameChannel s x
  trace : x.env.trace = s.env.trace
  inputs : x.env.inputs = s.env.inputs

theorem sendBuild_prepares (e : ExStep) (s : State) : Prepares s (sendBuild decided e s) := by
  refine ⟨?_, ?_, ?_, ?_, ?_⟩
  case refine_1 => cases e <;> constructor <;> simp [sendBuild]
  all_goals cases e <;> simp [sendBuild, SameChannel, SameConditions]

/-- The state after `ChanSend` of the segment in `SEG`, before its answer is looked at (spec/20 R71). -/
def handedOver (x : State) : State := afterSend (Memory.bytes (pack .le x.seg)) (loadSend decided x)

/-- A send ends as its step does where the channel takes 24 bytes, and in `ShortIo` with the answer's details where not. -/
theorem sendSeg_outcome {s x : State} (h : Carries s x) (rest : State → State) :
    SendOutcome s (sendSeg decided x rest) (sendChoice x) (sendSeg decided x rest = rest (handedOver x)) := by
  refine ⟨fun ha => sendSeg_whole decided rest ha, fun ha => ?_, fun n ha hn => ?_⟩
  · rw [sendSeg_error decided rest ha]
    simp [FailedIo, h.op, h.role, h.stepIx]
  · rw [sendSeg_short decided rest ha hn]
    simp [FailedIo, h.op, h.role, h.stepIx]

theorem SendOutcome.mono {s t : State} {c : SendChoice} {P Q : Prop} (h : SendOutcome s t c P) (hPQ : P → Q) : SendOutcome s t c Q := by
  obtain ⟨hwhole, herror, hshort⟩ := h
  exact ⟨fun hc => hPQ (hwhole hc), herror, hshort⟩

theorem wireSegment_pack (g : Segment) : WireSegment (Memory.bytes (pack .le g)) g := by
  simpa only [unpack_pack] using wireSegment_unpack (pack .le g)

theorem handedOver_carries {s x : State} (h : Prepares s x) : Carries s (handedOver x) :=
  h.carries.trans (by constructor <;> simp [handedOver])

theorem handedOver_transmitted {s x : State} (h : Prepares s x) : Transmitted s (handedOver x) (sendChoice x) := by
  obtain ⟨hrxq, htxq, ⟨hrd, htd, hts⟩, hrc, hsc⟩ := h.channel
  obtain ⟨hstatus, hk, ho, hr, hl, hp, -, hres⟩ := h.carries
  simp [handedOver, Transmitted, wireSegment_pack, pack_wf, h.trace, h.inputs, h.peerSeq, hrxq, htxq, SameConditions, hrd, htd, hts,
    hrc, hsc, SameSetup, hstatus, hk, ho, hr, hl, hp, hres]

/-- What `Transmitted` speaks of is written by no end of a step. -/
theorem Transmitted.endOf {s y : State} {c : SendChoice} (h : Transmitted s y c) (e : ExStep) : Transmitted s (endOf e y) c := by
  cases e <;> exact h

theorem Transmitted.raise {s y : State} {c : SendChoice} (h : Transmitted s y c) (k : ErrKind) (i : RaiseInfo) :
    Transmitted s (raise k i y) c := h

/-- However the channel answers, a send ends its step or raises from the state after `ChanSend`. -/
theorem sendSeg_ends (x : State) (rest : State → State) :
    sendSeg decided x rest = rest (handedOver x) ∨ ∃ i, sendSeg decided x rest = raise .shortIo i (handedOver x) := by
  rcases hc : sendAnswer (sendChoice x) with c | _
  · by_cases h : c = 24
    · exact .inl (sendSeg_whole decided rest (h ▸ hc))
    · exact .inr ⟨_, sendSeg_short decided rest hc h⟩
  · exact .inr ⟨_, sendSeg_error decided rest hc⟩

/-! ### The send steps -/

@[simp] theorem endOf_localSeq (e : ExStep) (s : State) : (endOf e s).localSeq = s.localSeq := by cases e <;> rfl

@[simp] theorem endOf_env (e : ExStep) (s : State) : (endOf e s).env = s.env := by cases e <;> rfl

/-- What every send step does that is not blocked, `x` being the state with the segment built: it transmits that segment, and keeps the
number and the draws of `x`. -/
structure Sends (e : ExStep) (s x t : State) : Prop where
  transmitted : Transmitted s t (sendChoice x)
  outcome : SendOutcome s t (sendChoice x) (t = endOf e (handedOver x))
  seg : t.seg = x.seg
  localSeq : t.localSeq = x.localSeq
  draws : t.env.draws = x.env.draws

theorem ownStep_sends {e : ExStep} {w : Half} {s : State} (hw : builtControl e = some w) (hb : sendBlocked s = false) :
    Sends e s (sendBuild decided e s) (ownStep decided e s) := by
  have hp := sendBuild_prepares e s
  have ht := handedOver_transmitted hp
  rw [ownStep_send decided hw, sendStep_free _ _ _ hb]
  have ho := sendSeg_outcome hp.carries (endOf e)
  rcases sendSeg_ends (sendBuild decided e s) (endOf e) with h | ⟨i, h⟩ <;> rw [h] at ho ⊢
  · exact ⟨ht.endOf e, ho, by simp [handedOver], by simp [handedOver], by simp [handedOver]⟩
  · exact ⟨ht.raise _ i, ho, by simp [handedOver], by simp [handedOver], by simp [handedOver]⟩

theorem Carries.goesOn {s y : State} (h : Carries s y) (hb : s.status.run = .busy) (n : StepIx) : GoesOn s (gotoStep n y) n :=
  ⟨(congrArg Status.run h.status).trans hb, rfl, h.err⟩

theorem Carries.sendCompletes {s y : State} (h : Carries s y) : SendCompletes s (finish y) := ⟨rfl, h.stepIx, h.err⟩

/-- A send step that succeeds and is not the last goes on to the index its end names. -/
theorem Sends.goesOn {e : ExStep} {s t : State} {n : StepIx} (h : Sends e s (sendBuild decided e s) t) (ha : activeStep s = some e)
    (he : endOf e = gotoStep n) : SendOutcome s t (sendChoice (sendBuild decided e s)) (GoesOn s t n) :=
  h.outcome.mono fun ht => by
    rw [ht, he]
    exact (handedOver_carries (sendBuild_prepares e s)).goesOn (activeStep_eq ha).1 n

/-- A send step that succeeds and is the last completes the exchange. -/
theorem Sends.completes {e : ExStep} {s t : State} (h : Sends e s (sendBuild decided e s) t) (he : endOf e = finish) :
    SendOutcome s t (sendChoice (sendBuild decided e s)) (SendCompletes s t) :=
  h.outcome.mono fun ht => by
    rw [ht, he]
    exact (handedOver_carries (sendBuild_prepares e s)).sendCompletes

/-- The send steps that draw a number (spec/42 R141, R146; spec/43 R161, R167). -/
def drawsNumber : ExStep → Bool
  | .oiSendRequest | .orSendGrant | .ciSendFin | .crSendAck => true
  | _ => false

/-- Such a step keeps the drawn number in `LOCAL_SEQ` and meets the channel after one draw. -/
theorem sendBuild_drawn {e : ExStep} (h : drawsNumber e = true) (s : State) :
    (sendBuild decided e s).localSeq = isn decided (drawValue s) ∧ (sendBuild decided e s).env.draws = s.env.draws.tail ∧
      sendChoice (sendBuild decided e s) = sendChoice (drawTaken s) := by
  cases e <;> cases h <;> simp [sendBuild]

/-- What a step does that draws a number, builds with it a segment with the acknowledgment `ack`, and goes on at `n` once sent. -/
theorem ownStep_sendsDrawn {e : ExStep} {w : Half} {s : State} {ack : Word} {n : StepIx} (hd : drawsNumber e = true) (hat : AtSend s e)
    (hw : builtControl e = some w) (he : endOf e = gotoStep n)
    (hseg : (sendBuild decided e s).seg = builtSegment s.localPort s.peerPort (isn decided (drawValue s)) ack w) :
    (ownStep decided e s).localSeq.toNat = (drawValue s).toNat % 0xFFFFFFF0 ∧
      Built s (ownStep decided e s).localSeq ack w (ownStep decided e s).seg ∧
      (ownStep decided e s).env.draws = s.env.draws.tail ∧ Transmitted s (ownStep decided e s) (sendChoice (drawTaken s)) ∧
      SendOutcome s (ownStep decided e s) (sendChoice (drawTaken s)) (GoesOn s (ownStep decided e s) n) := by
  obtain ⟨ha, hb⟩ := hat
  obtain ⟨hl, hdraws, hc⟩ := sendBuild_drawn hd s
  have h := ownStep_sends hw hb
  rw [h.localSeq, h.seg, h.draws, hl, hseg, hdraws, ← hc]
  exact ⟨isn_decided_toNat _, built_builtSegment s _ _ _, rfl, h.transmitted, h.goesOn ha he⟩

/-- Any other step keeps `LOCAL_SEQ` and meets the channel as it is. -/
theorem sendBuild_undrawn {e : ExStep} (h : drawsNumber e = false) (s : State) :
    (sendBuild decided e s).localSeq = s.localSeq ∧ (sendBuild decided e s).env.draws = s.env.draws ∧
      sendChoice (sendBuild decided e s) = sendChoice s := by
  cases e <;> cases h <;> simp [sendBuild]

/-- What a final acknowledgment does that is built as `OI.SendAck` builds it: it completes the exchange once sent. -/
theorem ownStep_sendsFollowUp {e : ExStep} {s : State} (hd : drawsNumber e = false) (hat : AtSend s e)
    (hw : builtControl e = some 0x6010#16) (he : endOf e = finish) (hbuild : sendBuild decided e = sendBuild decided .oiSendAck) :
    (ownStep decided e s).localSeq = s.localSeq ∧ (ownStep decided e s).env.draws = s.env.draws ∧
      Built s (s.localSeq + 1#32) (s.peerSeq + 1#32) 0x6010#16 (ownStep decided e s).seg ∧
      Transmitted s (ownStep decided e s) (sendChoice s) ∧
      SendOutcome s (ownStep decided e s) (sendChoice s) (SendCompletes s (ownStep decided e s)) := by
  obtain ⟨hl, hdraws, hc⟩ := sendBuild_undrawn hd s
  have h := ownStep_sends hw hat.2
  rw [h.localSeq, h.draws, h.seg, hl, hdraws, ← hc, hbuild, sendBuild_oiSendAck_seg, ← hbuild]
  exact ⟨rfl, rfl, built_builtSegment s _ _ _, h.transmitted, h.completes he⟩

/-- Settles O36: the step sends the request built with the drawn number. -/
theorem openRequestIsBuiltAndSent : Obligations.OpenRequestIsBuiltAndSent := fun s hat =>
  ⟨_, exec_segSyn hat.1, ownStep_sendsDrawn rfl hat rfl rfl (sendBuild_oiSendRequest_seg s)⟩

/-- Settles O37: the step sends the grant built with the drawn number and the peer's number plus 1. -/
theorem openGrantIsBuiltAndSent : Obligations.OpenGrantIsBuiltAndSent := fun s hat =>
  ⟨_, exec_segSynAck hat.1, ownStep_sendsDrawn rfl hat rfl rfl (sendBuild_orSendGrant_seg s)⟩

/-- Settles O38: the two final acknowledgments follow up on the numbers known; the close Responder's draws one. -/
theorem acknowledgmentsAreBuiltAndSent : Obligations.AcknowledgmentsAreBuiltAndSent := by
  unfold Obligations.AcknowledgmentsAreBuiltAndSent
  refine ⟨?_, fun s hat => ⟨_, exec_segAck_first hat.1, ownStep_sendsDrawn rfl hat rfl rfl (sendBuild_crSendAck_seg s)⟩⟩
  rintro s (hat | hat)
  · exact ⟨_, exec_segAck_open hat.1, ownStep_sendsFollowUp rfl hat rfl rfl rfl⟩
  · exact ⟨_, exec_segAck_close hat.1, ownStep_sendsFollowUp rfl hat rfl rfl (sendBuild_ciSendAck2 decided)⟩

end Sys2Proof.Machine
end

section
/-! PROOFS. What a receive step takes from the channel, and how each check ends it (spec/20 R60, R61, R72; spec/42 R142, R145, R147;
spec/60 R181 to R185). -/

namespace Sys2Proof.Machine

/-! ### What is taken from the channel -/

/-- The bytes a receive returns are the front of the queue, and the rest keep waiting (spec/20 R61). -/
theorem rxq_of_recvAnswer_bytes {s : State} {r : List Byte} (h : recvAnswer s = .bytes r) : s.env.rxq = r ++ (afterRecv s).env.rxq := by
  suffices hr : r = s.env.rxq.take (recvTakes s.env.rxq.length (recvChoice s)) by
    rw [afterRecv_env_rxq, hr, List.take_append_drop]
  cases hc : recvChoice s with
  | error k =>
    by_cases hl : s.env.rxq.length < 24
    · simp only [recvAnswer, hc, if_pos hl] at h
      cases h
    · simp only [recvAnswer, hc, if_neg hl] at h
      cases h
      rfl
  | regular | count n =>
    simp only [recvAnswer, hc] at h
    cases h
    rfl

/-- A receive answers an error where the environment chose one, and loses as many waiting bytes as it chose (log entry 21). -/
theorem recvChoice_of_recvAnswer_error {s : State} (h : recvAnswer s = .error) :
    ∃ k, recvChoice s = .error k ∧ (afterRecv s).env.rxq = s.env.rxq.drop k := by
  cases hc : recvChoice s with
  | error k =>
    by_cases hl : s.env.rxq.length < 24
    · refine ⟨k, rfl, ?_⟩
      simp only [afterRecv_env_rxq, hc, recvTakes, if_pos hl, List.drop_eq_drop_iff]
      omega
    · simp only [recvAnswer, hc, if_neg hl] at h
      cases h
  | regular | count n =>
    simp only [recvAnswer, hc] at h
    cases h

/-- The state a failed receive leaves, before `ShortIo` is recorded (spec/20 R72). -/
theorem bufUnspecified_afterRecv_frame (s : State) :
    Carries s (bufUnspecified (afterRecv s)) ∧ ReceiveFrame s (bufUnspecified (afterRecv s)) ∧
      Memory.wf (bufUnspecified (afterRecv s)).buf = true := by
  refine ⟨by constructor <;> simp, by simp [ReceiveFrame, SameConditions, SameSetup], ofBytes_wf (by simp)⟩

/-- A receive step whose call did not return 24 bytes raises `ShortIo` and looks at no segment. -/
theorem recvSeg_shortReceive {s : State} (rest : State → State) (hb : recvBlocked s = false) : ShortReceive s (recvSeg decided s rest) := by
  obtain ⟨hc, hframe, hwf⟩ := bufUnspecified_afterRecv_frame s
  cases ha : recvAnswer s with
  | error =>
    rw [recvSeg_error decided rest hb ha]
    refine ⟨fun _ => ⟨?_, recvChoice_of_recvAnswer_error ha⟩, fun r hr => ?_, fun _ => ⟨rfl, rfl, rfl, hwf, hframe⟩⟩
    · simp [FailedIo]
    · cases ha.symm.trans hr
  | bytes r =>
    by_cases h24 : r.length = 24
    · refine ⟨fun he => ?_, fun r' hr' hn => ?_, fun hn => absurd h24 (hn r ha)⟩
      · cases ha.symm.trans he
      · cases ha.symm.trans hr'
        exact absurd h24 hn
    · rw [recvSeg_short decided rest hb ha h24]
      refine ⟨fun he => ?_, fun r' hr' _ => ?_, fun _ => ⟨rfl, rfl, rfl, hwf, hframe⟩⟩
      · cases ha.symm.trans he
      · cases ha.symm.trans hr'
        exact ⟨by simp [FailedIo], rxq_of_recvAnswer_bytes ha⟩

/-! ### A received segment -/

/-- The state once a whole segment has been received, before the first check (spec/20 R72). -/
def latched (s : State) (r : List Byte) : State := latchSegment decided r (afterRecv s)

theorem latched_received {s : State} {r : List Byte} (ha : recvAnswer s = .bytes r) (hr : r.length = 24) :
    Received s (latched s r) r := by
  have hw : WireSegment r (unpack .le (Memory.ofBytes r)) := by
    simpa only [bytes_ofBytes hr] using wireSegment_unpack (Memory.ofBytes r)
  refine ⟨?_, ?_, ?_, ?_, ?_, ?_⟩
  · simpa [latched] using hw
  · simpa [latched] using bytes_ofBytes hr
  · simpa [latched] using ofBytes_wf (Nat.le_of_eq hr)
  · simp [latched]
  · rw [latched, latchSegment_env_rxq]
    exact rxq_of_recvAnswer_bytes ha
  · simp [latched, ReceiveFrame, SameConditions, SameSetup]

/-- What the checks read beside the segment is as it was before the receive. -/
structure Latched (s y : State) : Prop where
  carries : Carries s y
  localSeq : y.localSeq = s.localSeq
  peerSeq : y.peerSeq = s.peerSeq

theorem latched_latched (s : State) (r : List Byte) : Latched s (latched s r) := by
  refine ⟨by constructor <;> simp [latched], by simp [latched], by simp [latched]⟩

/-- What `Received` speaks of is written by no check and no end of a step. -/
theorem ChecksEnd.received {e : ExStep} {s y t : State} {r : List Byte} (h : ChecksEnd e y t) (hy : Received s y r) : Received s t r := by
  rcases h with rfl | rfl | ⟨k, -, i, rfl⟩
  · cases e <;> exact hy
  · cases e <;> exact hy
  · exact hy

theorem ChecksEnd.seg {e : ExStep} {y t : State} (h : ChecksEnd e y t) : t.seg = y.seg := by
  rcases h with rfl | rfl | ⟨k, -, i, rfl⟩ <;> simp

/-! ### The checks -/

theorem setWidth_eq_asWord (v : Half) : v.setWidth 32 = asWord v := by
  apply BitVec.eq_of_toNat_eq
  simp [asWord]

theorem setWidth_ctrlFlags (g : Segment) : (ctrlFlags g.ctrl).setWidth 32 = flagBits g := by
  apply BitVec.eq_of_toNat_eq
  simp [flagBits, ctrlFlags_toNat]

theorem checkFlag_eq_flagSet (f : FlagId) (g : Segment) : checkFlag f g = flagSet g f := checkFlag_eq f g

section
variable {s y : State} (rest : State → State)

theorem requireChecksum_failedCheck (hy : Latched s y) (h : checksum y.seg ≠ y.seg.csum) :
    FailedCheck s (requireChecksum y rest) .checksumMismatch .fin (asWord (checksum y.seg)) (asWord y.seg.csum) := by
  rw [requireChecksum_fail rest (by simpa [← verify_iff] using h)]
  simp [FailedCheck, hy.carries.op, hy.carries.role, hy.carries.stepIx, hy.peerSeq, setWidth_eq_asWord]

theorem requireSeq_failedCheck (hy : Latched s y) (h : y.seg.seq ≠ s.peerSeq + 1#32) :
    FailedCheck s (requireSeq y rest) .sequenceMismatch .fin (s.peerSeq + 1#32) y.seg.seq := by
  rw [requireSeq_fail rest (by rwa [hy.peerSeq])]
  simp [FailedCheck, hy.carries.op, hy.carries.role, hy.carries.stepIx, hy.peerSeq]

theorem requireAck_failedCheck (hy : Latched s y) {w : Word} (h : y.seg.ack ≠ w) :
    FailedCheck s (requireAck w y rest) .acknowledgmentMismatch .fin w y.seg.ack := by
  rw [requireAck_fail rest h]
  simp [FailedCheck, hy.carries.op, hy.carries.role, hy.carries.stepIx, hy.peerSeq]

theorem requireFlag_failedCheck (hy : Latched s y) {f : FlagId} (h : flagSet y.seg f = false) :
    FailedCheck s (requireFlag f y rest) .flagMismatch f ((flagMask f).setWidth 32) (flagBits y.seg) := by
  rw [requireFlag_fail rest ((checkFlag_eq_flagSet f y.seg).trans h)]
  simp [FailedCheck, hy.carries.op, hy.carries.role, hy.carries.stepIx, hy.peerSeq, setWidth_ctrlFlags]

end

/-! ### The receive steps -/

/-- The checks of a receive step and its end, once a whole segment is latched (spec/42 R142, R145, R147; spec/43 R162, R163, R166,
R169). -/
def recvChecks (p : Params) (e : ExStep) (s : State) : State :=
  match e with
  | .oiAwaitGrant => requireAck (s.localSeq + 1#32) s fun s => requireFlag .syn s fun s => requireFlag .ack s fun s =>
      requireOnly p 0x12#6 s fun s => requireChecksum s fun s => gotoStep .s2 (latchPeer s)
  | .orAwaitRequest => requireChecksum s fun s => requireFlag .syn s fun s => requireOnly p 0x02#6 s fun s =>
      gotoStep .s1 (latchPeer s)
  | .orAwaitAck | .crAwaitAck => requireChecksum s fun s => requireSeq s fun s => requireAck (s.localSeq + 1#32) s fun s =>
      requireFlag .ack s fun s => requireOnly p 0x10#6 s fun s => finish s
  | .ciAwaitAck1 => requireChecksum s fun s => requireAck (s.localSeq + 1#32) s fun s => requireFlag .ack s fun s =>
      requireOnly p 0x10#6 s fun s => gotoStep .s2 (latchPeer s)
  | .ciAwaitFin => requireChecksum s fun s => requireAck (s.localSeq + 1#32) s fun s => requireFlag .fin s fun s =>
      requireOnly p 0x01#6 s fun s => gotoStep .s3 s
  | .crAwaitFin => requireChecksum s fun s => requireAck 0#32 s fun s => requireFlag .fin s fun s => requireOnly p 0x01#6 s fun s =>
      gotoStep .s1 (latchPeer s)
  | .oiSendRequest | .oiSendAck | .orSendGrant | .ciSendFin | .ciSendAck2 | .crSendAck | .crSendFin => s

theorem ownStep_receive (p : Params) {e : ExStep} (h : builtControl e = none) (s : State) :
    ownStep p e s = recvSeg p s (recvChecks p e) := by
  cases e <;> cases h <;> rfl

theorem recvChecks_ends {e : ExStep} (h : builtControl e = none) (y : State) : ChecksEnd e y (recvChecks decided e y) := by
  cases e <;> cases h <;> simp only [recvChecks]
  case oiAwaitGrant =>
    exact .ack _ (by decide) <| .flag _ (by decide) <| .flag _ (by decide) <| .only _ (by decide) <| .checksum (by decide) <| .latched y
  case orAwaitRequest => exact .checksum (by decide) <| .flag _ (by decide) <| .only _ (by decide) <| .latched y
  case orAwaitAck | crAwaitAck =>
    exact .checksum (by decide) <| .seq (by decide) <| .ack _ (by decide) <| .flag _ (by decide) <| .only _ (by decide) <| .done y
  case ciAwaitAck1 | crAwaitFin =>
    exact .checksum (by decide) <| .ack _ (by decide) <| .flag _ (by decide) <| .only _ (by decide) <| .latched y
  case ciAwaitFin => exact .checksum (by decide) <| .ack _ (by decide) <| .flag _ (by decide) <| .only _ (by decide) <| .done y

/-- A receive step that is not blocked fails short, or latches the segment and ends as its checks say: what `P` says of a step is to
be shown of the checks alone. -/
theorem receive_turn {u s : State} {e : ExStep} {P : State → Prop} (hn : builtControl e = none) (ht : OwnTurn u s) (hat : AtReceive s e)
    (hP : ∀ y, Latched s y → (recvChecks decided e y).seg = y.seg → P (recvChecks decided e y)) :
    ∃ t, step u = .next t ∧ ShortReceive s t ∧ ∀ r, recvAnswer s = .bytes r → r.length = 24 → Received s t r ∧ P t := by
  obtain ⟨ha, hb⟩ := hat
  refine ⟨_, step_turn ht ha, ?_, fun r hr h24 => ?_⟩ <;> rw [ownStep_receive decided hn]
  · exact recvSeg_shortReceive _ hb
  · rw [recvSeg_whole decided _ hb hr h24]
    have hends := recvChecks_ends hn (latched s r)
    exact ⟨hends.received (latched_received hr h24), hP _ (latched_latched s r) hends.seg⟩

theorem Latched.goesOn {s y : State} (h : Latched s y) (hb : s.status.run = .busy) (n : StepIx) :
    GoesOn s (gotoStep n (latchPeer y)) n :=
  ⟨(congrArg Status.run h.carries.status).trans hb, rfl, h.carries.err⟩

theorem Latched.completes {s y : State} (h : Latched s y) : Completes s (finish y) :=
  ⟨rfl, h.carries.stepIx, h.carries.err, h.peerSeq⟩

/-- Settles O44: the four checks are peeled off in the order of spec/42 R142, the checksum last. -/
theorem openInitiatorAwaitsGrant : Obligations.OpenInitiatorAwaitsGrant := by
  unfold Obligations.OpenInitiatorAwaitsGrant
  intro u s ht hat
  refine receive_turn rfl ht hat fun y hy hseg => ?_
  rw [hseg, recvChecks, hy.localSeq]
  refine ⟨requireAck_failedCheck _ hy, fun hack => ?_⟩
  rw [requireAck_pass _ hack]
  refine ⟨requireFlag_failedCheck _ hy, fun hsyn => ?_⟩
  rw [requireFlag_pass _ ((checkFlag_eq_flagSet _ _).trans hsyn)]
  refine ⟨requireFlag_failedCheck _ hy, fun hflag => ?_⟩
  rw [requireFlag_pass _ ((checkFlag_eq_flagSet _ _).trans hflag), requireOnly_off rfl]
  refine ⟨requireChecksum_failedCheck _ hy, fun hsum => ?_⟩
  rw [requireChecksum_pass _ ((verify_iff _).mpr hsum)]
  exact ⟨hy.goesOn (activeStep_eq hat.1).1 .s2, rfl⟩

/-- Settles O45: the checksum and SYN are peeled off in this order. -/
theorem openResponderAwaitsRequest : Obligations.OpenResponderAwaitsRequest := by
  unfold Obligations.OpenResponderAwaitsRequest
  intro u s ht hat
  refine receive_turn rfl ht hat fun y hy hseg => ?_
  rw [hseg, recvChecks]
  refine ⟨requireChecksum_failedCheck _ hy, fun hsum => ?_⟩
  rw [requireChecksum_pass _ ((verify_iff _).mpr hsum)]
  refine ⟨requireFlag_failedCheck _ hy, fun hsyn => ?_⟩
  rw [requireFlag_pass _ ((checkFlag_eq_flagSet _ _).trans hsyn), requireOnly_off rfl]
  exact ⟨hy.goesOn (activeStep_eq hat.1).1 .s1, rfl⟩

/-- Settles O46: the two steps have the same checks, which are peeled off in the order of spec/42 R147. -/
theorem finalAcknowledgmentIsValidated : Obligations.FinalAcknowledgmentIsValidated := by
  unfold Obligations.FinalAcknowledgmentIsValidated
  rintro u s ht (hat | hat) <;> refine receive_turn rfl ht hat fun y hy hseg => ?_
  all_goals
    rw [hseg, recvChecks]
    refine ⟨requireChecksum_failedCheck _ hy, fun hsum => ?_⟩
    rw [requireChecksum_pass _ ((verify_iff _).mpr hsum)]
    refine ⟨requireSeq_failedCheck _ hy, fun hseq => ?_⟩
    rw [requireSeq_pass _ (hy.peerSeq ▸ hseq), hy.localSeq]
    refine ⟨requireAck_failedCheck _ hy, fun hack => ?_⟩
    rw [requireAck_pass _ hack]
    refine ⟨requireFlag_failedCheck _ hy, fun hflag => ?_⟩
    rw [requireFlag_pass _ ((checkFlag_eq_flagSet _ _).trans hflag), requireOnly_off rfl]
    exact hy.completes

end Sys2Proof.Machine
end

section
/-! PROOFS. Two sides on a quiet channel (spec/42 R150, R151; log entry 20). A side is described by a `SideView`; a step of the pair is a
move between views, and the relay joins what one side has sent to what waits at the other. -/

namespace Sys2Proof.Machine

/-! ### One side of a pair -/

/-- What a side of a pair on a well-behaved channel shows. -/
structure SideView where
  op : ExOp
  role : Role
  stepIx : StepIx
  run : RunState
  localPort : Half
  peerPort : Half
  localSeq : Word
  peerSeq : Word
  /-- the number the side draws next, where it still is to draw one -/
  number : Option Word
  seg : Segment
  /-- the segments that wait to be received, the oldest first -/
  waiting : List Segment
  /-- the segments sent that the relay has not moved yet -/
  sent : List Segment
  /-- how many trace records are out -/
  records : Nat

/-- The segments as the channel carries them (spec/20 R52, R58). -/
def wire (gs : List Segment) : List Byte := gs.flatMap fun g => Memory.bytes (pack .le g)

/-- Nothing is pending, `down` or stalled, and the environment has made no choice. -/
structure Calm (z : State) : Prop where
  inputs : z.env.inputs = []
  rxDown : z.env.rxDown = false
  txDown : z.env.txDown = false
  txStalled : z.env.txStalled = false
  recvChoices : z.env.recvChoices = []
  sendChoices : z.env.sendChoices = []

/-- The state `z` of a side, on a well-behaved channel and with no failure recorded, shows `v`. -/
structure SideAt (z : State) (v : SideView) : Prop where
  calm : Calm z
  err : z.err = ErrReg.zero
  op : z.op = v.op
  role : z.role = v.role
  stepIx : z.stepIx = v.stepIx
  run : z.status.run = v.run
  localPort : z.localPort = v.localPort
  peerPort : z.peerPort = v.peerPort
  localSeq : z.localSeq = v.localSeq
  peerSeq : z.peerSeq = v.peerSeq
  number : ∀ n, v.number = some n → isn decided (drawValue z) = n
  seg : z.seg = v.seg
  waiting : z.env.rxq = wire v.waiting
  sent : z.env.txq = wire v.sent
  records : z.env.trace.length = v.records

section
variable {z x y : State} {v : SideView}

theorem SideAt.active {e : ExStep} (h : SideAt z v) (hb : v.run = .busy) (he : stepAt v.op v.role v.stepIx = some e) :
    activeStep z = some e := by
  simp only [activeStep, h.run, hb, h.op, h.role, h.stepIx, he, if_true]

theorem SideAt.gotoStep (h : SideAt y v) (n : StepIx) : SideAt (gotoStep n y) { v with stepIx := n } :=
  { h with calm := { h.calm with }, stepIx := rfl }

theorem SideAt.finish (h : SideAt y v) : SideAt (finish y) { v with run := .done } :=
  { h with calm := { h.calm with }, run := rfl }

/-- What a side shows after the success of the step `e`. -/
def SideView.ended (v : SideView) (e : ExStep) : SideView :=
  match lastStep e with
  | true => { v with run := .done }
  | false => { v with stepIx := v.stepIx.succ?.getD v.stepIx }

theorem SideAt.ended {e : ExStep} (h : SideAt y v) (he : stepAt v.op v.role v.stepIx = some e) : SideAt (endOf e y) (v.ended e) := by
  rcases endOf_forward he with ⟨hlast, hd⟩ | ⟨hlast, n, hn, hd⟩
  · simpa only [hd, SideView.ended, hlast] using h.finish
  · simpa only [hd, SideView.ended, hlast, hn, Option.getD_some] using h.gotoStep n

theorem SideAt.latchPeer (h : SideAt y v) : SideAt (latchPeer y) { v with peerSeq := v.seg.seq } :=
  { h with calm := { h.calm with }, peerSeq := congrArg Segment.seq h.seg }

theorem Calm.sendChoice (h : Calm z) : sendChoice z = .full := by
  simp [Machine.sendChoice, h.sendChoices, h.txDown]

/-- Building a segment and a send leave a well-behaved channel so. -/
theorem Calm.handedOver (h : Calm z) (hp : Prepares z x) : Calm x ∧ Calm (handedOver x) := by
  obtain ⟨-, -, ⟨hrd, htd, hts⟩, hrc, hsc⟩ := hp.channel
  obtain ⟨hi, hzrd, hztd, hzts, hzrc, hzsc⟩ := h
  have hx : Calm x := ⟨hp.inputs.trans hi, hrd.trans hzrd, htd.trans hztd, hts.trans hzts, hrc.trans hzrc, hsc.trans hzsc⟩
  exact ⟨hx, by constructor <;> simp [Machine.handedOver, hx.inputs, hx.rxDown, hx.txDown, hx.txStalled, hx.recvChoices, hx.sendChoices]⟩

/-- A segment handed to a well-behaved channel is sent whole, with one record. -/
theorem SideAt.handedOver (h : SideAt z v) (hp : Prepares z x) :
    SideAt (handedOver x)
      { v with seg := x.seg, localSeq := x.localSeq, number := none, sent := v.sent ++ [x.seg], records := v.records + 1 } := by
  obtain ⟨hrxq, htxq, -⟩ := hp.channel
  obtain ⟨hx, hcalm⟩ := h.calm.handedOver hp
  have hc := handedOver_carries hp
  exact {
    calm := hcalm
    err := hc.err.trans h.err
    op := hc.op.trans h.op
    role := hc.role.trans h.role
    stepIx := hc.stepIx.trans h.stepIx
    run := (congrArg Status.run hc.status).trans h.run
    localPort := hc.localPort.trans h.localPort
    peerPort := hc.peerPort.trans h.peerPort
    localSeq := by simp [Machine.handedOver]
    peerSeq := by simp [Machine.handedOver, hp.peerSeq, h.peerSeq]
    number := nofun
    seg := by simp [Machine.handedOver]
    waiting := by simp [Machine.handedOver, hrxq, h.waiting]
    sent := by simp [Machine.handedOver, hx.sendChoice, sendEntered, htxq, h.sent, wire]
    records := by simp [Machine.handedOver, hp.trace, h.records] }

/-- A send step on a well-behaved channel sends what it builds and ends as a success. -/
theorem SideAt.step_send {e : ExStep} {w : Half} (h : SideAt z v) (hb : v.run = .busy) (he : stepAt v.op v.role v.stepIx = some e)
    (hw : builtControl e = some w) : step z = .next (endOf e (Machine.handedOver (sendBuild decided e z))) := by
  have hfree : sendBlocked z = false := by simp [sendBlocked, h.calm.txStalled]
  have hx := (h.calm.handedOver (sendBuild_prepares e z)).1
  rw [step_own h.calm.inputs (h.active hb he)]
  refine congrArg _ ((ownStep_sends hw hfree).outcome.1 ?_)
  rw [hx.sendChoice]
  rfl

/-- The image of a segment read back is that segment. -/
theorem unpack_ofBytes_pack (g : Segment) : unpack .le (Memory.ofBytes (Memory.bytes (pack .le g))) = g := by
  rw [ofBytes_bytes (pack_wf .le g), unpack_pack]

/-- The first segment waiting is taken from the queue whole, with one record, and no number is drawn for it. -/
theorem SideAt.latched {g : Segment} {gs : List Segment} (h : SideAt z v) (hv : v.waiting = g :: gs) :
    recvBlocked z = false ∧ recvAnswer z = .bytes (Memory.bytes (pack .le g)) ∧
      SideAt (latched z (Memory.bytes (pack .le g))) { v with seg := g, waiting := gs, records := v.records + 1 } := by
  have hq : z.env.rxq = Memory.bytes (pack .le g) ++ wire gs := by rw [h.waiting, hv, wire, List.flatMap_cons, ← wire]
  have hlen : 24 ≤ z.env.rxq.length := by simp [hq]
  have hrc := h.calm.recvChoices
  refine ⟨recvBlocked_of_waiting hlen, ?_, ?_⟩
  · rw [recvAnswer_of_waiting hlen hrc, hq, List.take_left' (bytes_length _)]
  have hrest : (afterRecv z).env.rxq = wire gs := by rw [afterRecv_rxq_of_waiting hlen hrc, hq, List.drop_left' (bytes_length _)]
  have hl := latched_latched z (Memory.bytes (pack .le g))
  have hc := hl.carries
  obtain ⟨hi, hrd, htd, hts, -, hsc⟩ := h.calm
  exact {
    calm := by constructor <;> simp [Machine.latched, *]
    err := hc.err.trans h.err
    op := hc.op.trans h.op
    role := hc.role.trans h.role
    stepIx := hc.stepIx.trans h.stepIx
    run := (congrArg Status.run hc.status).trans h.run
    localPort := hc.localPort.trans h.localPort
    peerPort := hc.peerPort.trans h.peerPort
    localSeq := hl.localSeq.trans h.localSeq
    peerSeq := hl.peerSeq.trans h.peerSeq
    number := fun n hn => by
      rw [← h.number n hn]
      simp [drawValue, Machine.latched, Nat.not_lt.mpr hlen]
    seg := by simp [Machine.latched, unpack_ofBytes_pack]
    waiting := by rw [Machine.latched, latchSegment_env_rxq, hrest]
    sent := by simp [Machine.latched, h.sent]
    records := by simp [Machine.latched, h.records] }

theorem SideAt.step_receive {e : ExStep} {g : Segment} {gs : List Segment} (h : SideAt z v) (hb : v.run = .busy)
    (he : stepAt v.op v.role v.stepIx = some e) (hn : builtControl e = none) (hv : v.waiting = g :: gs) :
    step z = .next (recvChecks decided e (Machine.latched z (Memory.bytes (pack .le g)))) := by
  obtain ⟨hfree, hanswer, -⟩ := h.latched hv
  rw [step_own h.calm.inputs (h.active hb he), ownStep_receive decided hn, recvSeg_whole decided _ hfree hanswer (bytes_length _),
    Machine.latched]

end

/-! ### Entry -/

/-- What a side shows right after its entry: the number it is to draw, and what `SEG` and the trace held before. -/
def SideView.entered (op : ExOp) (role : Role) (localPort peerPort : Half) (number : Word) (seg : Segment) (records : Nat) : SideView where
  op := op
  role := role
  stepIx := .s0
  run := .busy
  localPort := localPort
  peerPort := peerPort
  localSeq := 0#32
  peerSeq := 0#32
  number := some number
  seg := seg
  waiting := []
  sent := []
  records := records

theorem Quiet.calm {z : State} (h : Quiet z) : Calm z := by
  obtain ⟨hi, -, -, hrd, htd, hts, hrc, hsc⟩ := h
  exact ⟨hi, hrd, htd, hts, hrc, hsc⟩

theorem SideAt.entered {z : State} (h : Quiet z) (op : ExOp) (role : Role) (l p : Half) :
    SideAt (enterExchange op role l p (acceptCommand z))
      (.entered op role l p (isn decided (drawValue z)) z.seg z.env.trace.length) := by
  have hcalm := h.calm
  obtain ⟨-, hrxq, htxq, -⟩ := h
  exact {
    calm := { hcalm with }
    err := rfl
    op := rfl
    role := rfl
    stepIx := rfl
    run := rfl
    localPort := rfl
    peerPort := rfl
    localSeq := rfl
    peerSeq := rfl
    number := fun _ hn => Option.some.inj hn
    seg := rfl
    waiting := hrxq
    sent := htxq
    records := rfl }

/-! ### Moves between views -/

/-- A side that shows `v` steps to a state in which it shows `u`. -/
def Moves (v u : SideView) : Prop := ∀ z, SideAt z v → ∃ t, step z = .next t ∧ SideAt t u

/-- A side that runs no exchange stays as it is (spec/70 R221). -/
theorem moves_idle {v : SideView} (hn : v.run ≠ .busy) : Moves v v := fun z h =>
  ⟨z, step_of_plain ((fetch_free h.calm.inputs).trans (fetchOwn_idle fun hb => hn (h.run.symm.trans hb))), h⟩

/-- A side that waits for a segment stays as it is (spec/70 R225). -/
theorem moves_blocked {v : SideView} {e : ExStep} (hb : v.run = .busy) (he : stepAt v.op v.role v.stepIx = some e)
    (hn : builtControl e = none) (hv : v.waiting = []) : Moves v v := fun z h => by
  have hblocked : recvBlocked z = true := by simp [recvBlocked, h.waiting, hv, wire, h.calm.rxDown]
  have hs : stepBlocked e z = true := by simp [stepBlocked, hn, hblocked]
  exact ⟨z, (step_own h.calm.inputs (h.active hb he)).trans (congrArg _ (ownStep_blocked decided hs)), h⟩

/-- A send step moves on, once the segment and the number it builds are known. -/
theorem moves_send {v : SideView} {e : ExStep} {w : Half} {g : Segment} {l : Word} (hb : v.run = .busy)
    (he : stepAt v.op v.role v.stepIx = some e) (hw : builtControl e = some w)
    (hbuild : ∀ z, SideAt z v → (sendBuild decided e z).seg = g ∧ (sendBuild decided e z).localSeq = l) :
    Moves v (SideView.ended { v with seg := g, localSeq := l, number := none, sent := v.sent ++ [g], records := v.records + 1 } e) := by
  intro z h
  obtain ⟨rfl, rfl⟩ := hbuild z h
  exact ⟨_, h.step_send hb he hw, (h.handedOver (sendBuild_prepares e z)).ended he⟩

/-- A receive step moves to where its checks lead from the first segment that waits. -/
theorem moves_receive {v u : SideView} {e : ExStep} {g : Segment} {gs : List Segment} (hb : v.run = .busy)
    (he : stepAt v.op v.role v.stepIx = some e) (hn : builtControl e = none) (hv : v.waiting = g :: gs)
    (hchecks : ∀ y, SideAt y { v with seg := g, waiting := gs, records := v.records + 1 } → SideAt (recvChecks decided e y) u) :
    Moves v u := by
  intro z h
  obtain ⟨-, -, hy⟩ := h.latched hv
  exact ⟨_, h.step_receive hb he hn hv, hchecks _ hy⟩

/-! ### The pair -/

/-- A side joined to one that shows `u`: what that one has sent waits behind what waited before. -/
def SideView.link (v u : SideView) : SideView := { v with waiting := v.waiting ++ u.sent, sent := [] }

theorem SideAt.link {z peer : State} {v u : SideView} (h : SideAt z v) (k : SideAt peer u) : SideAt (linkTo peer z) (v.link u) :=
  { h with
    calm := {
      inputs := h.calm.inputs
      rxDown := by simp [linkTo, h.calm.rxDown, k.calm.txDown]
      txDown := by simp [linkTo, h.calm.txDown, k.calm.rxDown]
      txStalled := h.calm.txStalled
      recvChoices := h.calm.recvChoices
      sendChoices := h.calm.sendChoices }
    waiting := by simp [linkTo, h.waiting, k.sent, SideView.link, wire]
    sent := rfl }

/-- The two sides of a pair show these two views. -/
def PairAt (q : Pair) (vs : SideView × SideView) : Prop := SideAt q.left vs.1 ∧ SideAt q.right vs.2

theorem PairAt.left {q : Pair} {v u w : SideView} (h : PairAt q (v, w)) (hm : Moves v u) :
    ∃ q', pairStep .left q = .next q' ∧ PairAt q' (u.link w, w.link u) := by
  obtain ⟨hl, hr⟩ := h
  obtain ⟨t, hs, ht⟩ := hm q.left hl
  exact ⟨relay ⟨t, q.right⟩, by simp only [pairStep, hs], ht.link hr, hr.link ht⟩

theorem PairAt.right {q : Pair} {v u w : SideView} (h : PairAt q (v, w)) (hm : Moves w u) :
    ∃ q', pairStep .right q = .next q' ∧ PairAt q' (v.link u, u.link v) := by
  obtain ⟨hl, hr⟩ := h
  obtain ⟨t, hs, ht⟩ := hm q.right hr
  exact ⟨relay ⟨q.left, t⟩, by simp only [pairStep, hs], hl.link ht, ht.link hl⟩

end Sys2Proof.Machine
end

section
/-! PROOFS. The open exchange of a pair as seven phases, one step of one side apart: every schedule walks them in this order, and a step of
the side whose turn it is not changes nothing (spec/42 R150, R151; spec/95 P2). -/

namespace Sys2Proof.Machine

/-! ### The views of an open exchange -/

/-- The data of one open exchange: for each side its ports, its number, and what `SEG` and the trace held before. -/
structure OpenRun where
  leftLocal : Half
  leftPeer : Half
  rightLocal : Half
  rightPeer : Half
  leftNumber : Word
  rightNumber : Word
  leftSeg : Segment
  rightSeg : Segment
  leftRecords : Nat
  rightRecords : Nat

namespace OpenRun

variable (r : OpenRun)

/-- The segment of `OI.SendRequest` (spec/42 R141). -/
def request : Segment := builtSegment r.leftLocal r.leftPeer r.leftNumber 0#32 0x6002#16

/-- The segment of `OR.SendGrant` (spec/42 R146). -/
def grant : Segment := builtSegment r.rightLocal r.rightPeer r.rightNumber (r.leftNumber + 1#32) 0x6012#16

/-- The segment of `OI.SendAck` (spec/42 R143). -/
def confirmation : Segment := builtSegment r.leftLocal r.leftPeer (r.leftNumber + 1#32) (r.rightNumber + 1#32) 0x6010#16

/-- The Initiator after `OPEN.I`. -/
def leftEntered : SideView := .entered .openEx .initiator r.leftLocal r.leftPeer r.leftNumber r.leftSeg r.leftRecords

/-- The Responder after `OPEN.R`. -/
def rightEntered : SideView := .entered .openEx .responder r.rightLocal r.rightPeer r.rightNumber r.rightSeg r.rightRecords

/-- The Initiator once its request is out. -/
def leftRequested : SideView :=
  { r.leftEntered with
    stepIx := .s1, localSeq := r.leftNumber, number := none, seg := r.request, records := r.leftRecords + 1 }

/-- The Responder once it has the request. -/
def rightHeard : SideView :=
  { r.rightEntered with stepIx := .s1, peerSeq := r.leftNumber, seg := r.request, records := r.rightRecords + 1 }

/-- The Responder once its grant is out. -/
def rightGranted : SideView :=
  { r.rightHeard with
    stepIx := .s2, localSeq := r.rightNumber, number := none, seg := r.grant, records := r.rightRecords + 2 }

/-- The Initiator once it has the grant. -/
def leftAccepted : SideView :=
  { r.leftRequested with stepIx := .s2, peerSeq := r.rightNumber, seg := r.grant, records := r.leftRecords + 2 }

/-- The Initiator in `DONE`. -/
def leftDone : SideView := { r.leftAccepted with run := .done, seg := r.confirmation, records := r.leftRecords + 3 }

/-- The Responder in `DONE`. -/
def rightDone : SideView := { r.rightGranted with run := .done, seg := r.confirmation, records := r.rightRecords + 3 }

end OpenRun

/-! ### The six moves -/

theorem checkFlag_builtSegment (f : FlagId) (sport dport : Half) (seq ack : Word) (ctrl : Half) :
    checkFlag f (builtSegment sport dport seq ack ctrl) = ctrl.getLsbD f.pos := by
  rw [checkFlag_eq, builtSegment, stamp_ctrl]

/-- `OI.SendRequest` (spec/42 R141). -/
theorem moves_request (r : OpenRun) : Moves r.leftEntered { r.leftRequested with sent := [r.request] } := by
  refine moves_send (e := .oiSendRequest) rfl rfl rfl fun z h => ?_
  have hnumber : isn decided (drawValue z) = r.leftNumber := h.number _ rfl
  rw [sendBuild_oiSendRequest_seg, (sendBuild_drawn rfl z).1, hnumber, h.localPort, h.peerPort]
  exact ⟨rfl, rfl⟩

/-- `OR.AwaitRequest` (spec/42 R145). -/
theorem moves_heard (r : OpenRun) : Moves { r.rightEntered with waiting := [r.request] } r.rightHeard := by
  refine moves_receive (e := .orAwaitRequest) rfl rfl rfl rfl fun y h => ?_
  have hsum : verify y.seg = true := h.seg ▸ verify_builtSegment _ _ _ _ _
  have hsyn : checkFlag .syn y.seg = true := h.seg ▸ checkFlag_builtSegment _ _ _ _ _ _
  rw [recvChecks, requireChecksum_pass _ hsum, requireFlag_pass _ hsyn, requireOnly_off rfl]
  exact h.latchPeer.gotoStep .s1

/-- `OR.SendGrant` (spec/42 R146). -/
theorem moves_grant (r : OpenRun) : Moves r.rightHeard { r.rightGranted with sent := [r.grant] } := by
  refine moves_send (e := .orSendGrant) rfl rfl rfl fun z h => ?_
  have hnumber : isn decided (drawValue z) = r.rightNumber := h.number _ rfl
  rw [sendBuild_orSendGrant_seg, (sendBuild_drawn rfl z).1, hnumber, h.localPort, h.peerPort, h.peerSeq]
  exact ⟨rfl, rfl⟩

/-- `OI.AwaitGrant` (spec/42 R142). -/
theorem moves_accepted (r : OpenRun) : Moves { r.leftRequested with waiting := [r.grant] } r.leftAccepted := by
  refine moves_receive (e := .oiAwaitGrant) rfl rfl rfl rfl fun y h => ?_
  have hack : y.seg.ack = y.localSeq + 1#32 := by rw [h.seg, h.localSeq]; rfl
  have hsyn : checkFlag .syn y.seg = true := h.seg ▸ checkFlag_builtSegment _ _ _ _ _ _
  have hflag : checkFlag .ack y.seg = true := h.seg ▸ checkFlag_builtSegment _ _ _ _ _ _
  have hsum : verify y.seg = true := h.seg ▸ verify_builtSegment _ _ _ _ _
  rw [recvChecks, requireAck_pass _ hack, requireFlag_pass _ hsyn, requireFlag_pass _ hflag, requireOnly_off rfl,
    requireChecksum_pass _ hsum]
  exact h.latchPeer.gotoStep .s2

/-- `OI.SendAck` (spec/42 R143). -/
theorem moves_confirmation (r : OpenRun) : Moves r.leftAccepted { r.leftDone with sent := [r.confirmation] } := by
  refine moves_send (e := .oiSendAck) rfl rfl rfl fun z h => ?_
  rw [sendBuild_oiSendAck_seg, (sendBuild_undrawn rfl z).1, h.localPort, h.peerPort, h.localSeq, h.peerSeq]
  exact ⟨rfl, rfl⟩

/-- `OR.AwaitAck` (spec/42 R147). -/
theorem moves_confirmed (r : OpenRun) : Moves { r.rightGranted with waiting := [r.confirmation] } r.rightDone := by
  refine moves_receive (e := .orAwaitAck) rfl rfl rfl rfl fun y h => ?_
  have hsum : verify y.seg = true := h.seg ▸ verify_builtSegment _ _ _ _ _
  have hseq : y.seg.seq = y.peerSeq + 1#32 := by rw [h.seg, h.peerSeq]; rfl
  have hack : y.seg.ack = y.localSeq + 1#32 := by rw [h.seg, h.localSeq]; rfl
  have hflag : checkFlag .ack y.seg = true := h.seg ▸ checkFlag_builtSegment _ _ _ _ _ _
  rw [recvChecks, requireChecksum_pass _ hsum, requireSeq_pass _ hseq, requireAck_pass _ hack, requireFlag_pass _ hflag,
    requireOnly_off rfl]
  exact h.finish

/-! ### The seven phases -/

/-- How far an open exchange of a pair is. -/
inductive OpenPhase where
  | entered
  | requested
  | heard
  | granted
  | accepted
  | confirmed
  | finished

namespace OpenPhase

/-- What the two sides show in a phase. -/
def views (r : OpenRun) : OpenPhase → SideView × SideView
  | entered => (r.leftEntered, r.rightEntered)
  | requested => (r.leftRequested, { r.rightEntered with waiting := [r.request] })
  | heard => (r.leftRequested, r.rightHeard)
  | granted => ({ r.leftRequested with waiting := [r.grant] }, r.rightGranted)
  | accepted => (r.leftAccepted, r.rightGranted)
  | confirmed => (r.leftDone, { r.rightGranted with waiting := [r.confirmation] })
  | finished => (r.leftDone, r.rightDone)

/-- The phase after a step of a side: each phase is left by one side, and a step of the other one changes nothing. -/
def next : OpenPhase → Side → OpenPhase
  | entered, .left => requested
  | requested, .right => heard
  | heard, .right => granted
  | granted, .left => accepted
  | accepted, .left => confirmed
  | confirmed, .right => finished
  | ph, _ => ph

end OpenPhase

/-- Whichever side steps, the pair goes on as `OpenPhase.next` says. -/
theorem pairStep_openPhase {r : OpenRun} {q : Pair} {ph : OpenPhase} (h : PairAt q (ph.views r)) (who : Side) :
    ∃ q', pairStep who q = .next q' ∧ PairAt q' ((ph.next who).views r) := by
  cases ph <;> cases who
  case entered.left => exact h.left (moves_request r)
  case requested.right => exact h.right (moves_heard r)
  case heard.right => exact h.right (moves_grant r)
  case granted.left => exact h.left (moves_accepted r)
  case accepted.left => exact h.left (moves_confirmation r)
  case confirmed.right => exact h.right (moves_confirmed r)
  case entered.right => exact h.right (moves_blocked (e := .orAwaitRequest) rfl rfl rfl rfl)
  case requested.left | heard.left => exact h.left (moves_blocked (e := .oiAwaitGrant) rfl rfl rfl rfl)
  case granted.right | accepted.right => exact h.right (moves_blocked (e := .orAwaitAck) rfl rfl rfl rfl)
  case confirmed.left | finished.left => exact h.left (moves_idle nofun)
  case finished.right => exact h.right (moves_idle nofun)

/-- Under a schedule the pair goes through the phases the schedule selects. -/
theorem pairRun_openPhase {r : OpenRun} (schedule : List Side) {q : Pair} {ph : OpenPhase} (h : PairAt q (ph.views r)) :
    ∃ q', pairRun schedule q = .next q' ∧ PairAt q' ((schedule.foldl OpenPhase.next ph).views r) := by
  induction schedule generalizing q ph with
  | nil => exact ⟨q, rfl, h⟩
  | cons who schedule ih =>
    obtain ⟨q₁, hstep, h₁⟩ := pairStep_openPhase h who
    obtain ⟨q', hrun, h'⟩ := ih h₁
    exact ⟨q', by rw [pairRun, hstep]; exact hrun, h'⟩

/-! ### From the entries on -/

/-- The open exchange that `x` and `y` are about to hold on their ports. -/
def openRun (x y : State) (a b c d : Half) : OpenRun where
  leftLocal := a
  leftPeer := b
  rightLocal := c
  rightPeer := d
  leftNumber := isn decided (drawValue x)
  rightNumber := isn decided (drawValue y)
  leftSeg := x.seg
  rightSeg := y.seg
  leftRecords := x.env.trace.length
  rightRecords := y.env.trace.length

/-- Two sides entered on a quiet channel are in the first phase. -/
theorem pairAt_entered {x y x' y' : State} {a b c d : Half} (hx : Quiet x) (hy : Quiet y) (hxn : x.status.run ≠ .busy)
    (hyn : y.status.run ≠ .busy) (hxe : exec (.openI a b) x = .next x') (hye : exec (.openR c d) y = .next y') :
    PairAt ⟨x', y'⟩ (OpenPhase.entered.views (openRun x y a b c d)) := by
  cases hxe.symm.trans (exec_openI a b hxn)
  cases hye.symm.trans (exec_openR c d hyn)
  exact ⟨.entered hx .openEx .initiator a b, .entered hy .openEx .responder c d⟩

/-- Settles O56: the order of spec/95 P2 selects the last phase, whose views carry the numbers and the last segment. -/
theorem openExchangeCompletes : Obligations.OpenExchangeCompletes := by
  unfold Obligations.OpenExchangeCompletes
  intro x y x' y' a b c d hx hy hxn hyn hxe hye
  obtain ⟨q, hrun, hl, hr⟩ :=
    pairRun_openPhase [.left, .right, .right, .left, .left, .right] (pairAt_entered hx hy hxn hyn hxe hye)
  have hseg : q.left.seg = (openRun x y a b c d).confirmation := hl.seg
  refine ⟨q, hrun, hl.run, hr.run, congrArg ErrReg.kind hl.err, congrArg ErrReg.kind hr.err, ?_, ?_, hl.peerSeq.trans hr.localSeq.symm,
    hr.peerSeq.trans hl.localSeq.symm, hl.stepIx, hr.stepIx, hr.seg.trans hl.seg.symm, ?_⟩
  · rw [hl.localSeq]
    exact isn_decided_toNat _
  · rw [hr.localSeq]
    exact isn_decided_toNat _
  · rw [hseg, hl.localSeq, hr.localSeq]
    exact ⟨rfl, rfl, rfl, rfl, rfl, hl.waiting, hr.waiting, hl.records, hr.records⟩

/-- Settles O58: no phase has a failed side, and only the last has the Responder done, where the Initiator is done too. -/
theorem openExchangeFailsUnderNoSchedule : Obligations.OpenExchangeFailsUnderNoSchedule := by
  unfold Obligations.OpenExchangeFailsUnderNoSchedule
  intro x y x' y' a b c d schedule hx hy hxn hyn hxe hye
  obtain ⟨q, hrun, hl, hr⟩ := pairRun_openPhase schedule (pairAt_entered hx hy hxn hyn hxe hye)
  refine ⟨q, hrun, ?_⟩
  rw [hl.run, hr.run]
  generalize schedule.foldl OpenPhase.next .entered = ph
  cases ph
  case finished => exact ⟨nofun, nofun, fun _ => rfl⟩
  all_goals exact ⟨nofun, nofun, nofun⟩

end Sys2Proof.Machine
end

section
/-! PROOFS. Entry into the close exchange, and its two close requests (spec/43 R160, R161, R168). -/

namespace Sys2Proof.Machine

/-- Settles O35: an accepted entry writes the role state and the status, and the two machines begin at their first steps. -/
theorem closeEntryStartsTheExchange : Obligations.CloseEntryStartsTheExchange := by
  unfold Obligations.CloseEntryStartsTheExchange
  intro s lp pp hn
  refine ⟨⟨_, exec_closeI lp pp hn, ?_⟩, ⟨_, exec_closeR lp pp hn, ?_⟩⟩
  all_goals simp [activeStep, stepAt, SameBytes]

theorem sendBuild_ciSendFin_seg (s : State) :
    (sendBuild decided .ciSendFin s).seg = builtSegment s.localPort s.peerPort (isn decided (drawValue s)) 0#32 0x6001#16 := by
  have fin : ctrlSet .fin 0x6000#16 = 0x6001#16 := by decide
  simp [sendBuild, builtSegment, setFlag, fresh, fin]

theorem sendBuild_crSendFin_seg (s : State) :
    (sendBuild decided .crSendFin s).seg = stamp (setFlag .fin (clearFlag decided .ack s.seg)) := by
  simp [sendBuild]

/-- What the Responder's close request does: it sends the template with ACK cleared, FIN set and a new stamp. -/
theorem ownStep_sendsTemplate {s : State} (hat : AtSend s .crSendFin) :
    (ownStep decided .crSendFin s).localSeq = s.localSeq ∧ (ownStep decided .crSendFin s).env.draws = s.env.draws ∧
      (ownStep decided .crSendFin s).seg = stamp (setFlag .fin (clearFlag decided .ack s.seg)) ∧
      Transmitted s (ownStep decided .crSendFin s) (sendChoice s) ∧
      SendOutcome s (ownStep decided .crSendFin s) (sendChoice s) (GoesOn s (ownStep decided .crSendFin s) .s3) := by
  obtain ⟨hl, hdraws, hc⟩ := sendBuild_undrawn (e := .crSendFin) rfl s
  have h := ownStep_sends (e := .crSendFin) (w := 0x6001#16) rfl hat.2
  rw [← hc]
  exact ⟨h.localSeq.trans hl, h.draws.trans hdraws, h.seg.trans (sendBuild_crSendFin_seg s), h.transmitted, h.goesOn hat.1 rfl⟩

/-- Settles O39: the Initiator's step sends the request built with the drawn number, the Responder's what it makes of the template. -/
theorem closeRequestsAreBuiltAndSent : Obligations.CloseRequestsAreBuiltAndSent := by
  unfold Obligations.CloseRequestsAreBuiltAndSent
  refine ⟨fun s hat =>
    ⟨_, exec_segFin_initiator hat.1, ownStep_sendsDrawn rfl hat rfl rfl (sendBuild_ciSendFin_seg s)⟩, fun s hat => ?_⟩
  obtain ⟨hl, hdraws, hseg, htransmitted, houtcome⟩ := ownStep_sendsTemplate hat
  have hexec : exec .segFin s = .next (ownStep decided .crSendFin s) := exec_segFin_template hat.1
  refine ⟨_, hexec, hl, hdraws, ?_⟩
  rw [hseg]
  refine ⟨fun k _ => ?_, rfl, rfl, rfl, rfl, rfl, rfl, rfl, ?_, htransmitted, houtcome⟩
  · rw [stamp_ctrl, setFlag_ctrl, clearFlag_ctrl, ctrlSet_getLsbD, ctrlClear_getLsbD rfl]
    rfl
  · rw [stamp_csum, checksum_stamp]

end Sys2Proof.Machine
end

section
/-! PROOFS. The receive steps of the close exchange but the last: the checksum, the acknowledgment and one flag are checked in this
order (spec/43 R162, R163, R166). -/

namespace Sys2Proof.Machine

/-- How such a step ends once the segment is in `SEG`: the first failing check is recorded, and `success` holds where all pass. -/
def CloseChecked (s t : State) (ack : Word) (f : FlagId) (success : Prop) : Prop :=
  (checksum t.seg ≠ t.seg.csum → FailedCheck s t .checksumMismatch .fin (asWord (checksum t.seg)) (asWord t.seg.csum)) ∧
  (checksum t.seg = t.seg.csum →
    (t.seg.ack ≠ ack → FailedCheck s t .acknowledgmentMismatch .fin ack t.seg.ack) ∧
    (t.seg.ack = ack →
      (flagSet t.seg f = false → FailedCheck s t .flagMismatch f ((flagMask f).setWidth 32) (flagBits t.seg)) ∧
      (flagSet t.seg f = true → success)))

/-- The three checks, peeled off in order. -/
theorem closeChecked {s y t : State} {ack : Word} {f : FlagId} {m : BitVec 6} {success : Prop} {expected : State → Word}
    {rest : State → State} (hy : Latched s y) (hseg : t.seg = y.seg) (hack : expected y = ack) (hsuccess : t = rest y → success)
    (ht : t = requireChecksum y fun y => requireAck (expected y) y fun y => requireFlag f y fun y => requireOnly decided m y rest) :
    CloseChecked s t ack f success := by
  rw [CloseChecked, hseg]
  refine ⟨ht ▸ requireChecksum_failedCheck _ hy, fun hsum => ?_⟩
  rw [requireChecksum_pass _ ((verify_iff _).mpr hsum), hack] at ht
  refine ⟨ht ▸ requireAck_failedCheck _ hy, fun hpass => ?_⟩
  rw [requireAck_pass _ hpass] at ht
  refine ⟨ht ▸ requireFlag_failedCheck _ hy, fun hflag => ?_⟩
  rw [requireFlag_pass _ ((checkFlag_eq_flagSet _ _).trans hflag), requireOnly_off rfl] at ht
  exact hsuccess ht

theorem Latched.expectedAck {s y : State} (h : Latched s y) : y.localSeq + 1#32 = s.localSeq + 1#32 := by rw [h.localSeq]

/-- Settles O47: the acknowledgment is checked against `LOCAL_SEQ + 1`, then ACK, and the peer's number is latched. -/
theorem closeInitiatorAwaitsAcknowledgment : Obligations.CloseInitiatorAwaitsAcknowledgment := by
  unfold Obligations.CloseInitiatorAwaitsAcknowledgment
  intro u s ht hat
  refine receive_turn rfl ht hat fun y hy hseg =>
    closeChecked (f := .ack) (expected := fun y => y.localSeq + 1#32) hy hseg hy.expectedAck (fun hend => ?_) rfl
  rw [hend]
  exact ⟨hy.goesOn (activeStep_eq hat.1).1 .s2, rfl⟩

/-- Settles O48: the acknowledgment is checked against `LOCAL_SEQ + 1`, then FIN, and `PEER_SEQ` is kept. -/
theorem closeInitiatorAwaitsFin : Obligations.CloseInitiatorAwaitsFin := by
  unfold Obligations.CloseInitiatorAwaitsFin
  intro u s ht hat
  refine receive_turn rfl ht hat fun y hy hseg =>
    closeChecked (f := .fin) (expected := fun y => y.localSeq + 1#32) hy hseg hy.expectedAck (fun hend => ?_) rfl
  rw [hend]
  exact ⟨hy.carries.goesOn (activeStep_eq hat.1).1 .s3, hy.peerSeq⟩

/-- Settles O49: the acknowledgment is checked against 0, then FIN, and the peer's number is latched. -/
theorem closeResponderAwaitsFin : Obligations.CloseResponderAwaitsFin := by
  unfold Obligations.CloseResponderAwaitsFin
  intro u s ht hat
  refine receive_turn rfl ht hat fun y hy hseg =>
    closeChecked (f := .fin) (expected := fun _ => 0#32) hy hseg rfl (fun hend => ?_) rfl
  rw [hend]
  exact ⟨hy.goesOn (activeStep_eq hat.1).1 .s1, rfl⟩

end Sys2Proof.Machine
end

section
/-! PROOFS. The close exchange of a pair in the order of spec/95 P3 (spec/43 R171). The data of the exchange are those `OpenRun` names:
ports, numbers, and what `SEG` and the trace held before; the views are those of the close machines. -/

namespace Sys2Proof.Machine

/-! ### Runs of a pair -/

/-- Under the schedule every pair that shows `vs` comes to show `us`. -/
def Runs (schedule : List Side) (vs us : SideView × SideView) : Prop :=
  ∀ q, PairAt q vs → ∃ q', pairRun schedule q = .next q' ∧ PairAt q' us

theorem Runs.nil (vs : SideView × SideView) : Runs [] vs vs := fun q h => ⟨q, rfl, h⟩

theorem Runs.left {schedule : List Side} {v u w : SideView} {us : SideView × SideView} (hm : Moves v u)
    (hrest : Runs schedule (u.link w, w.link u) us) : Runs (.left :: schedule) (v, w) us := fun _ h => by
  obtain ⟨q₁, hstep, h₁⟩ := h.left hm
  simpa only [pairRun, hstep] using hrest q₁ h₁

theorem Runs.right {schedule : List Side} {v u w : SideView} {us : SideView × SideView} (hm : Moves w u)
    (hrest : Runs schedule (v.link u, u.link v) us) : Runs (.right :: schedule) (v, w) us := fun _ h => by
  obtain ⟨q₁, hstep, h₁⟩ := h.right hm
  simpa only [pairRun, hstep] using hrest q₁ h₁

/-! ### The views of a close exchange -/

namespace CloseRun

variable (r : OpenRun)

/-- The segment of `CI.SendFin` (spec/43 R161). -/
def request : Segment := builtSegment r.leftLocal r.leftPeer r.leftNumber 0#32 0x6001#16

/-- The segment of `CR.SendAck` (spec/43 R167). -/
def acknowledgment : Segment := builtSegment r.rightLocal r.rightPeer r.rightNumber (r.leftNumber + 1#32) 0x6010#16

/-- The segment of `CR.SendFin` (spec/43 R168). -/
def answer : Segment := builtSegment r.rightLocal r.rightPeer r.rightNumber (r.leftNumber + 1#32) 0x6001#16

/-- The Initiator after `CLOSE.I`. -/
def leftEntered : SideView := .entered .closeEx .initiator r.leftLocal r.leftPeer r.leftNumber r.leftSeg r.leftRecords

/-- The Responder after `CLOSE.R`. -/
def rightEntered : SideView := .entered .closeEx .responder r.rightLocal r.rightPeer r.rightNumber r.rightSeg r.rightRecords

/-- The Initiator once its request is out. -/
def leftRequested : SideView :=
  { leftEntered r with
    stepIx := .s1, localSeq := r.leftNumber, number := none, seg := request r, records := r.leftRecords + 1 }

/-- The Responder once it has the request. -/
def rightHeard : SideView :=
  { rightEntered r with stepIx := .s1, peerSeq := r.leftNumber, seg := request r, records := r.rightRecords + 1 }

/-- The Responder once its acknowledgment is out. -/
def rightAcknowledged : SideView :=
  { rightHeard r with
    stepIx := .s2, localSeq := r.rightNumber, number := none, seg := acknowledgment r, records := r.rightRecords + 2 }

/-- The Responder once its own request is out too. -/
def rightAnswered : SideView := { rightAcknowledged r with stepIx := .s3, seg := answer r, records := r.rightRecords + 3 }

/-- The Initiator once it has the acknowledgment. -/
def leftAccepted : SideView :=
  { leftRequested r with stepIx := .s2, peerSeq := r.rightNumber, seg := acknowledgment r, records := r.leftRecords + 2 }

/-- The Initiator once it has the Responder's request. -/
def leftHeard : SideView := { leftAccepted r with stepIx := .s3, seg := answer r, records := r.leftRecords + 3 }

/-- The Initiator in `DONE`; its last segment is built as in an open exchange (spec/43 R164). -/
def leftDone : SideView := { leftHeard r with run := .done, seg := r.confirmation, records := r.leftRecords + 4 }

/-- The Responder in `DONE`. -/
def rightDone : SideView := { rightAnswered r with run := .done, seg := r.confirmation, records := r.rightRecords + 4 }

/-! ### The eight moves -/

/-- `CI.SendFin` (spec/43 R161). -/
theorem moves_request : Moves (leftEntered r) { leftRequested r with sent := [request r] } := by
  refine moves_send (e := .ciSendFin) rfl rfl rfl fun z h => ?_
  have hnumber : isn decided (drawValue z) = r.leftNumber := h.number _ rfl
  rw [sendBuild_ciSendFin_seg, (sendBuild_drawn rfl z).1, hnumber, h.localPort, h.peerPort]
  exact ⟨rfl, rfl⟩

/-- `CR.AwaitFin` (spec/43 R166). -/
theorem moves_rightHeard : Moves { rightEntered r with waiting := [request r] } (rightHeard r) := by
  refine moves_receive (e := .crAwaitFin) rfl rfl rfl rfl fun y h => ?_
  have hsum : verify y.seg = true := h.seg ▸ verify_builtSegment _ _ _ _ _
  have hack : y.seg.ack = 0#32 := by rw [h.seg]; rfl
  have hfin : checkFlag .fin y.seg = true := h.seg ▸ checkFlag_builtSegment _ _ _ _ _ _
  rw [recvChecks, requireChecksum_pass _ hsum, requireAck_pass _ hack, requireFlag_pass _ hfin, requireOnly_off rfl]
  exact h.latchPeer.gotoStep .s1

/-- `CR.SendAck` (spec/43 R167). -/
theorem moves_acknowledgment : Moves (rightHeard r) { rightAcknowledged r with sent := [acknowledgment r] } := by
  refine moves_send (e := .crSendAck) rfl rfl rfl fun z h => ?_
  have hnumber : isn decided (drawValue z) = r.rightNumber := h.number _ rfl
  rw [sendBuild_crSendAck_seg, (sendBuild_drawn rfl z).1, hnumber, h.localPort, h.peerPort, h.peerSeq]
  exact ⟨rfl, rfl⟩

/-- The template turned into the Responder's request: ACK gives way to FIN, and the new stamp does not depend on the old one. -/
theorem stamp_fin_acknowledgment : stamp (setFlag .fin (clearFlag decided .ack (acknowledgment r))) = answer r := by
  have fin : ctrlSet .fin (ctrlClear decided .ack 0x6010#16) = 0x6001#16 := by decide
  simp only [acknowledgment, answer, builtSegment, setFlag, clearFlag, stamp, fin]

/-- `CR.SendFin` (spec/43 R168). -/
theorem moves_answer : Moves (rightAcknowledged r) { rightAnswered r with sent := [answer r] } := by
  refine moves_send (e := .crSendFin) rfl rfl rfl fun z h => ?_
  have hseg : z.seg = acknowledgment r := h.seg
  rw [sendBuild_crSendFin_seg, (sendBuild_undrawn rfl z).1, h.localSeq, hseg, stamp_fin_acknowledgment]
  exact ⟨rfl, rfl⟩

/-- `CI.AwaitAck1` (spec/43 R162), with the Responder's request waiting behind the acknowledgment. -/
theorem moves_accepted :
    Moves { leftRequested r with waiting := [acknowledgment r, answer r] } { leftAccepted r with waiting := [answer r] } := by
  refine moves_receive (e := .ciAwaitAck1) rfl rfl rfl rfl fun y h => ?_
  have hsum : verify y.seg = true := h.seg ▸ verify_builtSegment _ _ _ _ _
  have hack : y.seg.ack = y.localSeq + 1#32 := by rw [h.seg, h.localSeq]; rfl
  have hflag : checkFlag .ack y.seg = true := h.seg ▸ checkFlag_builtSegment _ _ _ _ _ _
  rw [recvChecks, requireChecksum_pass _ hsum, requireAck_pass _ hack, requireFlag_pass _ hflag, requireOnly_off rfl]
  exact h.latchPeer.gotoStep .s2

/-- `CI.AwaitFin` (spec/43 R163). -/
theorem moves_leftHeard : Moves { leftAccepted r with waiting := [answer r] } (leftHeard r) := by
  refine moves_receive (e := .ciAwaitFin) rfl rfl rfl rfl fun y h => ?_
  have hsum : verify y.seg = true := h.seg ▸ verify_builtSegment _ _ _ _ _
  have hack : y.seg.ack = y.localSeq + 1#32 := by rw [h.seg, h.localSeq]; rfl
  have hfin : checkFlag .fin y.seg = true := h.seg ▸ checkFlag_builtSegment _ _ _ _ _ _
  rw [recvChecks, requireChecksum_pass _ hsum, requireAck_pass _ hack, requireFlag_pass _ hfin, requireOnly_off rfl]
  exact h.gotoStep .s3

/-- `CI.SendAck2` (spec/43 R164). -/
theorem moves_confirmation : Moves (leftHeard r) { leftDone r with sent := [r.confirmation] } := by
  refine moves_send (e := .ciSendAck2) rfl rfl rfl fun z h => ?_
  rw [(sendBuild_undrawn rfl z).1, sendBuild_ciSendAck2, sendBuild_oiSendAck_seg, h.localPort, h.peerPort, h.localSeq, h.peerSeq]
  exact ⟨rfl, rfl⟩

/-- `CR.AwaitAck` (spec/43 R169). -/
theorem moves_confirmed : Moves { rightAnswered r with waiting := [r.confirmation] } (rightDone r) := by
  refine moves_receive (e := .crAwaitAck) rfl rfl rfl rfl fun y h => ?_
  have hsum : verify y.seg = true := h.seg ▸ verify_builtSegment _ _ _ _ _
  have hseq : y.seg.seq = y.peerSeq + 1#32 := by rw [h.seg, h.peerSeq]; rfl
  have hack : y.seg.ack = y.localSeq + 1#32 := by rw [h.seg, h.localSeq]; rfl
  have hflag : checkFlag .ack y.seg = true := h.seg ▸ checkFlag_builtSegment _ _ _ _ _ _
  rw [recvChecks, requireChecksum_pass _ hsum, requireSeq_pass _ hseq, requireAck_pass _ hack, requireFlag_pass _ hflag,
    requireOnly_off rfl]
  exact h.finish

/-! ### The run -/

/-- The order of spec/95 P3: the Responder's two segments are in flight together. -/
theorem runs_in_order :
    Runs [.left, .right, .right, .right, .left, .left, .left, .right] (leftEntered r, rightEntered r) (leftDone r, rightDone r) :=
  .left (moves_request r) <| .right (moves_rightHeard r) <| .right (moves_acknowledgment r) <| .right (moves_answer r) <|
    .left (moves_accepted r) <| .left (moves_leftHeard r) <| .left (moves_confirmation r) <| .right (moves_confirmed r) <| .nil _

end CloseRun

/-! ### From the entries on -/

/-- Two sides entered on a quiet channel are at the start of that run. -/
theorem pairAt_closeEntered {x y x' y' : State} {a b c d : Half} (hx : Quiet x) (hy : Quiet y) (hxn : x.status.run ≠ .busy)
    (hyn : y.status.run ≠ .busy) (hxe : exec (.closeI a b) x = .next x') (hye : exec (.closeR c d) y = .next y') :
    PairAt ⟨x', y'⟩ (CloseRun.leftEntered (openRun x y a b c d), CloseRun.rightEntered (openRun x y a b c d)) := by
  cases hxe.symm.trans (exec_closeI a b hxn)
  cases hye.symm.trans (exec_closeR c d hyn)
  exact ⟨.entered hx .closeEx .initiator a b, .entered hy .closeEx .responder c d⟩

/-- Settles O57: the run ends with both sides in `DONE`, whose views carry the numbers and the last segment. -/
theorem closeExchangeCompletes : Obligations.CloseExchangeCompletes := by
  unfold Obligations.CloseExchangeCompletes
  intro x y x' y' a b c d hx hy hxn hyn hxe hye
  obtain ⟨q, hrun, hl, hr⟩ := CloseRun.runs_in_order _ _ (pairAt_closeEntered hx hy hxn hyn hxe hye)
  have hseg : q.left.seg = (openRun x y a b c d).confirmation := hl.seg
  refine ⟨q, hrun, hl.run, hr.run, congrArg ErrReg.kind hl.err, congrArg ErrReg.kind hr.err, ?_, ?_, hl.peerSeq.trans hr.localSeq.symm,
    hr.peerSeq.trans hl.localSeq.symm, hl.stepIx, hr.stepIx, hr.seg.trans hl.seg.symm, ?_⟩
  · rw [hl.localSeq]
    exact isn_decided_toNat _
  · rw [hr.localSeq]
    exact isn_decided_toNat _
  · rw [hseg, hl.localSeq, hr.localSeq]
    exact ⟨rfl, rfl, rfl, rfl, rfl, hl.waiting, hr.waiting, hl.records, hr.records⟩

end Sys2Proof.Machine
end

section
/-! PROOFS. What a command does to `STATUS` and `ERR`, and which kinds a step of a running exchange records (spec/60 R186, R189, R190,
R194). -/

namespace Sys2Proof.Machine

/-! ### Commands -/

/-- A command is a unit operation, or the entry into an exchange (spec/30 R93). -/
theorem unitOperation_or_entry {i : Instr} (hi : isCommand i = true) :
    isUnitOperation i = true ∨
      ∃ o r a b, ∀ s : State, s.status.run ≠ .busy → exec i s = .next (enterExchange o r a b (acceptCommand s)) := by
  cases i
  case segSyn | segSynAck | segAck | segFin => cases hi
  case openI a b => exact .inr ⟨_, _, a, b, fun _ => exec_openI a b⟩
  case openR a b => exact .inr ⟨_, _, a, b, fun _ => exec_openR a b⟩
  case closeI a b => exact .inr ⟨_, _, a, b, fun _ => exec_closeI a b⟩
  case closeR a b => exact .inr ⟨_, _, a, b, fun _ => exec_closeR a b⟩
  all_goals exact .inl rfl

/-- An accepted unit operation clears `STATUS.cmd_err` (spec/10 R28). -/
theorem exec_unitOperation_cmdErr {i : Instr} {s : State} (hi : isUnitOperation i = true) (hn : s.status.run ≠ .busy) :
    ∃ t, exec i s = .next t ∧ t.status.cmdErr = false := by
  cases i
  case openI | openR | closeI | closeR | segSyn | segSynAck | segAck | segFin => cases hi
  case create a b => exact ⟨_, exec_create a b hn, by simp [createSeg]⟩
  case setFlag f => exact ⟨_, exec_setFlag f hn, rfl⟩
  case clearFlag f => exact ⟨_, exec_clearFlag f hn, rfl⟩
  case checkFlag f => exact ⟨_, exec_checkFlag f hn, rfl⟩
  case getOff => exact ⟨_, exec_getOff hn, rfl⟩
  case getRsv => exact ⟨_, exec_getRsv hn, rfl⟩
  case pack => exact ⟨_, exec_pack hn, rfl⟩
  case unpack => exact ⟨_, exec_unpack hn, rfl⟩
  case report => exact ⟨_, exec_report hn, rfl⟩
  case checksum => exact ⟨_, exec_checksum hn, rfl⟩
  case stamp => exact ⟨_, exec_stamp hn, rfl⟩
  case verify => exact ⟨_, exec_verify hn, rfl⟩

/-- Settles O11: an illegal word and a command while `BUSY` end in `refuseCommand`; an accepted command clears `cmd_err` before it acts,
and no command sets it. -/
theorem refusedCommandChangesOnlyCmdErr : Obligations.RefusedCommandChangesOnlyCmdErr := by
  unfold Obligations.RefusedCommandChangesOnlyCmdErr
  refine ⟨fun s w a b rest r hi hd => step_of_illegal (fetch_input hi) hd, fun s i hi hb => ?_, fun s i hi hn => ?_⟩
  · rw [exec_command_refused hi hb, refuseCommand, ← hb]
  · rcases unitOperation_or_entry hi with hu | ⟨o, r, a, b, hentry⟩
    · exact exec_unitOperation_cmdErr hu hn
    · exact ⟨_, hentry s hn, rfl⟩

/-- A command leaves `STATUS.state` and `ERR` alone, or enters an exchange with `ERR` cleared. -/
theorem exec_command_raises_nothing {s t : State} {i : Instr} (hi : isCommand i = true) (hs : exec i s = .next t) :
    t.status.run = s.status.run ∧ t.err = s.err ∨ t.status.run = .busy ∧ t.err = ErrReg.zero := by
  by_cases hb : s.status.run = .busy
  · cases hs.symm.trans (exec_command_refused hi hb)
    exact .inl ⟨rfl, rfl⟩
  rcases unitOperation_or_entry hi with hu | ⟨o, r, a, b, hentry⟩
  · obtain ⟨t', ht', heffect⟩ := exec_unitOperation hu hb
    cases hs.symm.trans ht'
    exact .inl ⟨heffect.run, heffect.err⟩
  · cases hs.symm.trans (hentry s hb)
    exact .inr ⟨rfl, rfl⟩

/-! ### The steps of a running exchange -/

/-- A step that succeeds ends in `DONE` or leaves the exchange running. -/
theorem endOf_run_ne_failed (e : ExStep) {y : State} (hb : y.status.run = .busy) : (endOf e y).status.run ≠ .failed := by
  cases e
  case oiSendAck | orAwaitAck | ciSendAck2 | crAwaitAck => simp [endOf]
  all_goals simp [endOf, hb]

/-- A step of a running exchange that ends in `FAILED` records one of its kinds. -/
theorem ownStep_failed_kind {e : ExStep} {s : State} (ha : activeStep s = some e) (hf : (ownStep decided e s).status.run = .failed) :
    (ownStep decided e s).err.kind ∈ mayRaise e := by
  obtain ⟨hbusy, -⟩ := activeStep_eq ha
  rcases ownStep_cases e s with ⟨-, hs⟩ | ⟨y, hc, -, -, ⟨hs, -⟩ | ⟨k, hk, i, hs⟩⟩
  · rw [hs, hbusy] at hf
    cases hf
  · rw [hs] at hf
    exact absurd hf (endOf_run_ne_failed e (hc.status ▸ hbusy))
  · rw [hs]
    exact hk

/-- Settles O50: `ownStep_cases` lists the kinds a step raises, and a command ends in a refusal, a unit operation or an entry. -/
theorem stepsRaiseOnlyTheirKinds : Obligations.StepsRaiseOnlyTheirKinds := by
  unfold Obligations.StepsRaiseOnlyTheirKinds
  refine ⟨fun u s t e ht ha hs hf => ?_, fun s t i => exec_command_raises_nothing⟩
  cases hs.symm.trans (step_turn ht ha)
  exact ownStep_failed_kind ha hf

end Sys2Proof.Machine
end

section
/-! PROOFS. The strict variant (spec/60 R195): a receive step and its strict form are one chain of checks up to the strict check, which
stands behind the last required-flag check. -/

namespace Sys2Proof.Machine

/-! ### The flags of a control word -/

theorem ctrlFlags_getLsbD (g : Segment) (f : FlagId) : (ctrlFlags g.ctrl).getLsbD f.pos = flagSet g f := by
  have hmask : (0x003F#16).getLsbD f.pos = true := by cases f <;> rfl
  simp only [ctrlFlags, flagSet, BitVec.getLsbD_setWidth, BitVec.getLsbD_and, hmask, pos_lt f, decide_true,
    Bool.true_and, Bool.and_true]

/-- A flag field is known by its six flags. -/
theorem flagField_ext {v w : BitVec 6} (h : ∀ f : FlagId, v.getLsbD f.pos = w.getLsbD f.pos) : v = w := by
  apply BitVec.eq_of_getLsbD_eq
  intro k hk
  obtain ⟨f, rfl⟩ := exists_flag_pos_iff.mpr hk
  exact h f

theorem allFlags_pairwise_pos : allFlags.Pairwise fun f h => f.pos < h.pos := by decide

theorem mem_allFlags (f : FlagId) : f ∈ allFlags := by cases f <;> decide

theorem eq_of_mem_flagMask {f g : FlagId} (h : ((flagMask g).setWidth 6).getLsbD f.pos = true) : f = g := by
  rw [BitVec.getLsbD_setWidth, flagMask_getLsbD, Bool.and_eq_true, decide_eq_true_eq, decide_eq_true_eq] at h
  exact pos_inj.mp h.2

/-- The lowest flag is the one that is set with none below it. -/
theorem lowestFlag_eq {v : BitVec 6} {f : FlagId} (hf : v.getLsbD f.pos = true)
    (hbelow : ∀ h : FlagId, h.pos < f.pos → v.getLsbD h.pos = false) : lowestFlag v = f := by
  obtain ⟨before, after, hsplit⟩ := List.append_of_mem (mem_allFlags f)
  have hsorted := allFlags_pairwise_pos
  rw [hsplit, List.pairwise_append] at hsorted
  obtain ⟨-, -, hcross⟩ := hsorted
  have hfind : allFlags.find? (fun f => v.getLsbD f.pos) = some f := by
    refine List.find?_eq_some_iff_append.mpr ⟨hf, before, after, hsplit, fun h hh => ?_⟩
    rw [hbelow h (hcross h hh f List.mem_cons_self), Bool.not_false]
  rw [lowestFlag, hfind, Option.getD_some]

/-! ### The strict check -/

/-- The decided parameters with `STRICT_FLAGS` on. -/
def strictParams : Params := { decided with strictFlags := true }

/-- On other flags the strict check raises `FlagMismatch` with the lowest-numbered one. -/
theorem requireOnly_strict_other {m : BitVec 6} {y : State} (rest : State → State) {f : FlagId} (hf : flagSet y.seg f = true)
    (hm : m.getLsbD f.pos = false) (hlow : ∀ h : FlagId, h.pos < f.pos → flagSet y.seg h = true → m.getLsbD h.pos = true) :
    requireOnly strictParams m y rest =
      raise .flagMismatch { flag := f, unexpected := true, expected := m.setWidth 32, observed := flagBits y.seg } y := by
  have hne : ctrlFlags y.seg.ctrl ≠ m := by
    rintro rfl
    rw [ctrlFlags_getLsbD, hf] at hm
    cases hm
  have hlowest : lowestFlag (ctrlFlags y.seg.ctrl &&& ~~~m) = f := by
    have hbit (h : FlagId) : (ctrlFlags y.seg.ctrl &&& ~~~m).getLsbD h.pos = (flagSet y.seg h && !m.getLsbD h.pos) := by
      simp only [BitVec.getLsbD_and, BitVec.getLsbD_not, ctrlFlags_getLsbD, pos_lt h, decide_true, Bool.true_and]
    refine lowestFlag_eq (by rw [hbit, hf, hm]; rfl) fun h hh => ?_
    cases hset : flagSet y.seg h with
    | false => rw [hbit, hset, Bool.false_and]
    | true => rw [hbit, hlow h hh hset, Bool.not_true, Bool.and_false]
  simp [requireOnly, strictParams, hne, hlowest, setWidth_ctrlFlags]

/-! ### A step and its strict form -/

/-- A failure of a check behind the strict one: the checksum in `OI.AwaitGrant`, which is checked last (spec/60 R195). -/
def FailsBehindStrict (e : ExStep) (t : State) : Prop := e = .oiAwaitGrant ∧ t.err.kind = .checksumMismatch

/-- How the checks of a step and of its strict form relate, from the latched segment `y` on: one earlier check fails both, or all
required flags are set and they part at the strict check, behind which the step can fail only as R195 says. -/
inductive StrictSplit (e : ExStep) (m : BitVec 6) (y : State) : State → State → Prop
  | earlier {t : State} (hfailed : t.status.run = .failed) (hahead : ¬ FailsBehindStrict e t) : StrictSplit e m y t t
  | reached (rest : State → State) (hrequired : ∀ f : FlagId, m.getLsbD f.pos = true → flagSet y.seg f = true)
      (hrest : (rest y).status.run = .failed → FailsBehindStrict e (rest y)) :
      StrictSplit e m y (rest y) (requireOnly strictParams m y rest)

namespace StrictSplit

variable {e : ExStep} {m : BitVec 6} {y : State} {rest rest' : State → State}

theorem raised {k : ErrKind} (hk : ¬ (e = .oiAwaitGrant ∧ k = .checksumMismatch)) (i : RaiseInfo) :
    StrictSplit e m y (raise k i y) (raise k i y) := .earlier rfl hk

theorem checksum (he : e ≠ .oiAwaitGrant) (h : StrictSplit e m y (rest y) (rest' y)) :
    StrictSplit e m y (requireChecksum y rest) (requireChecksum y rest') := by
  cases hv : verify y.seg with
  | true => rwa [requireChecksum_pass _ hv, requireChecksum_pass _ hv]
  | false =>
    rw [requireChecksum_fail _ hv, requireChecksum_fail _ hv]
    exact raised (fun hk => he hk.1) _

theorem seq (h : StrictSplit e m y (rest y) (rest' y)) : StrictSplit e m y (requireSeq y rest) (requireSeq y rest') := by
  by_cases hs : y.seg.seq = y.peerSeq + 1#32
  · rwa [requireSeq_pass _ hs, requireSeq_pass _ hs]
  · rw [requireSeq_fail _ hs, requireSeq_fail _ hs]
    exact raised (by simp) _

theorem ack (w : Word) (h : StrictSplit e m y (rest y) (rest' y)) :
    StrictSplit e m y (requireAck w y rest) (requireAck w y rest') := by
  by_cases ha : y.seg.ack = w
  · rwa [requireAck_pass _ ha, requireAck_pass _ ha]
  · rw [requireAck_fail _ ha, requireAck_fail _ ha]
    exact raised (by simp) _

/-- Behind a required-flag check its flag is set. -/
theorem flag (f : FlagId) (h : flagSet y.seg f = true → StrictSplit e m y (rest y) (rest' y)) :
    StrictSplit e m y (requireFlag f y rest) (requireFlag f y rest') := by
  cases hf : checkFlag f y.seg with
  | true =>
    rw [requireFlag_pass _ hf, requireFlag_pass _ hf]
    exact h ((checkFlag_eq_flagSet f y.seg).symm.trans hf)
  | false =>
    rw [requireFlag_fail _ hf, requireFlag_fail _ hf]
    exact raised (by simp) _

/-- The strict check itself: without `STRICT_FLAGS` it is nothing. -/
theorem only (hrequired : ∀ f : FlagId, m.getLsbD f.pos = true → flagSet y.seg f = true)
    (hrest : (rest y).status.run = .failed → FailsBehindStrict e (rest y)) :
    StrictSplit e m y (requireOnly decided m y rest) (requireOnly strictParams m y rest) := by
  rw [requireOnly_off rfl]
  exact .reached rest hrequired hrest

/-- The strict check behind one required flag. -/
theorem onlyOne {g : FlagId} (hg : flagSet y.seg g = true) (hm : m = (flagMask g).setWidth 6)
    (hrest : (rest y).status.run ≠ .failed) :
    StrictSplit e m y (requireOnly decided m y rest) (requireOnly strictParams m y rest) :=
  .only (fun _ hf => eq_of_mem_flagMask (hm ▸ hf) ▸ hg) (fun hfailed => absurd hfailed hrest)

variable {plain strict : State}

theorem eq_of_noOther (h : StrictSplit e m y plain strict) (hnone : ∀ f : FlagId, flagSet y.seg f = true → m.getLsbD f.pos = true) :
    strict = plain := by
  cases h with
  | earlier => rfl
  | reached rest hrequired =>
    refine requireOnly_same strictParams rest (flagField_ext fun f => ?_)
    rw [ctrlFlags_getLsbD]
    exact Bool.eq_iff_iff.mpr ⟨hnone f, hrequired f⟩

theorem eq_of_earlier (h : StrictSplit e m y plain strict) (hahead : ¬ (plain.status.run = .failed → FailsBehindStrict e plain)) :
    strict = plain := by
  cases h with
  | earlier => rfl
  | reached rest _ hrest => exact absurd hrest hahead

theorem raise_of_other (h : StrictSplit e m y plain strict) (hchecked : plain.status.run = .failed → FailsBehindStrict e plain)
    {f : FlagId} (hf : flagSet y.seg f = true) (hm : m.getLsbD f.pos = false)
    (hlow : ∀ h : FlagId, h.pos < f.pos → flagSet y.seg h = true → m.getLsbD h.pos = true) :
    strict = raise .flagMismatch { flag := f, unexpected := true, expected := m.setWidth 32, observed := flagBits y.seg } y := by
  cases h with
  | earlier hfailed hahead => exact absurd (hchecked hfailed) hahead
  | reached rest => exact requireOnly_strict_other rest hf hm hlow

end StrictSplit

/-- The two flags of the open grant (spec/30 R87). -/
theorem eq_syn_or_ack_of_mem_grant (f : FlagId) (h : (0x12#6).getLsbD f.pos = true) : f = .syn ∨ f = .ack := by
  cases f
  case syn => exact .inl rfl
  case ack => exact .inr rfl
  all_goals cases h

/-- The checksum check that ends `OI.AwaitGrant` is the one check behind the strict one. -/
theorem requireChecksum_failsBehindStrict {y : State} {rest : State → State} (hrest : (rest y).status.run ≠ .failed)
    (hfailed : (requireChecksum y rest).status.run = .failed) : FailsBehindStrict .oiAwaitGrant (requireChecksum y rest) := by
  rcases requireChecksum_cases y rest with h | ⟨i, h⟩
  · rw [h] at hfailed
    exact absurd hfailed hrest
  · rw [h]
    exact ⟨rfl, rfl⟩

/-- The seven receive steps and the flags each requires (spec/60 R195). -/
def requiredFlags : List (ExStep × BitVec 6) :=
  [(.oiAwaitGrant, 0x12#6), (.orAwaitRequest, 0x02#6), (.orAwaitAck, 0x10#6), (.ciAwaitAck1, 0x10#6), (.ciAwaitFin, 0x01#6),
    (.crAwaitFin, 0x01#6), (.crAwaitAck, 0x10#6)]

theorem builtControl_of_requiredFlags : ∀ x ∈ requiredFlags, builtControl x.1 = none := by decide

theorem recvChecks_strictSplit {e : ExStep} {m : BitVec 6} {y : State} (hm : (e, m) ∈ requiredFlags) (hb : y.status.run = .busy) :
    StrictSplit e m y (recvChecks decided e y) (recvChecks strictParams e y) := by
  have hgoes (n : StepIx) (x : State) (hx : x.status = y.status) : (gotoStep n x).status.run ≠ .failed := by
    rw [gotoStep_status, hx, hb]
    nofun
  simp only [requiredFlags, List.mem_cons, List.not_mem_nil, or_false, Prod.mk.injEq] at hm
  rcases hm with ⟨rfl, rfl⟩ | ⟨rfl, rfl⟩ | ⟨rfl, rfl⟩ | ⟨rfl, rfl⟩ | ⟨rfl, rfl⟩ | ⟨rfl, rfl⟩ | ⟨rfl, rfl⟩
  all_goals simp only [recvChecks]
  · exact .ack _ <| .flag .syn fun hsyn => .flag .ack fun hack => .only
      (fun f hf => (eq_syn_or_ack_of_mem_grant f hf).elim (fun h => h ▸ hsyn) (fun h => h ▸ hack))
      (requireChecksum_failsBehindStrict (hgoes .s2 _ rfl))
  · exact .checksum (by decide) <| .flag .syn fun hsyn => .onlyOne hsyn rfl (hgoes .s1 _ rfl)
  · exact .checksum (by decide) <| .seq <| .ack _ <| .flag .ack fun hack => .onlyOne hack rfl (by simp)
  · exact .checksum (by decide) <| .ack _ <| .flag .ack fun hack => .onlyOne hack rfl (hgoes .s2 _ rfl)
  · exact .checksum (by decide) <| .ack _ <| .flag .fin fun hfin => .onlyOne hfin rfl (hgoes .s3 _ rfl)
  · exact .checksum (by decide) <| .ack _ <| .flag .fin fun hfin => .onlyOne hfin rfl (hgoes .s1 _ rfl)
  · exact .checksum (by decide) <| .seq <| .ack _ <| .flag .ack fun hack => .onlyOne hack rfl (by simp)

theorem receiveStep_eq_ownStep (p : Params) {e : ExStep} (h : builtControl e = none) (s : State) :
    receiveStep p e s = ownStep p e s := by
  cases e <;> cases h <;> rfl

/-- `STRICT_FLAGS` does not touch the wire order, so both forms of a step check one latched segment. -/
theorem receiveStep_strictSplit {s : State} {e : ExStep} {m : BitVec 6} {r : List Byte} (hm : (e, m) ∈ requiredFlags)
    (hat : AtReceive s e) (ha : recvAnswer s = .bytes r) (hr : r.length = 24) :
    StrictSplit e m (latched s r) (receiveStep decided e s) (receiveStep strictParams e s) := by
  obtain ⟨hactive, hfree⟩ := hat
  have hchecks (p : Params) (hp : p.wireOrder = .le) : receiveStep p e s = recvChecks p e (latched s r) := by
    have hbuilt := builtControl_of_requiredFlags _ hm
    rw [receiveStep_eq_ownStep p hbuilt, ownStep_receive p hbuilt, recvSeg_whole p _ hfree ha hr]
    simp only [latched, latchSegment, hp, decided_wireOrder]
  rw [hchecks decided rfl, hchecks strictParams rfl]
  refine recvChecks_strictSplit hm ?_
  rw [(latched_latched s r).carries.status]
  exact (activeStep_eq hactive).1

/-- Settles O55: where an earlier check fails both forms fail alike; where the strict check is reached, it passes when no other flag is
set, and else raises with the lowest-numbered one. -/
theorem strictVariantDiffersOnlyOnExtraFlags : Obligations.StrictVariantDiffersOnlyOnExtraFlags := by
  unfold Obligations.StrictVariantDiffersOnlyOnExtraFlags
  intro strict s e r required hm hat ha hr got plain flagsChecked
  have hseg : (latched s r).seg = got := by simp [latched, got]
  have hcarries := (latched_latched s r).carries
  have hsplit : StrictSplit e required (latched s r) plain (receiveStep strict e s) := receiveStep_strictSplit hm hat ha hr
  rw [← hseg]
  refine ⟨hsplit.eq_of_noOther, hsplit.eq_of_earlier, fun hchecked f hf hother hlow => ?_⟩
  rw [hsplit.raise_of_other hchecked hf hother hlow]
  simp [hcarries.op, hcarries.role, hcarries.stepIx]

end Sys2Proof.Machine
end

section
/-! PROOFS. An instance that runs no exchange (spec/70 R221); what the checksum does not see: the order of the summed words (R234) and
the byte order they are read in (R235). -/

namespace Sys2Proof.Machine

/-! ### No exchange runs -/

/-- Settles O53: with no exchange to run, the turn of the block fetches the state as it is. -/
theorem idleBlockDoesNothing : Obligations.IdleBlockDoesNothing :=
  fun _ _ ht hn => step_of_plain ((fetch_turn ht).trans (fetchOwn_idle hn))

/-! ### The order of the words -/

/-- The verdict rests on the sum of the words and the checksum field alone. -/
theorem verify_congr {g h : Segment} (hsum : (checksumWords h).sum = (checksumWords g).sum) (hcsum : h.csum = g.csum) :
    verify h = verify g := by
  have hchecksum : checksum h = checksum g := (checksum_eq_iff_fold h g).mpr (by rw [hsum])
  rw [verify, verify, hchecksum, hcsum]

theorem toNat_rotateLeft_sixteen (v : Word) : (v.rotateLeft 16).toNat = 2 ^ 16 * lowHalf v + highHalf v := by
  have hlow : v.toNat <<< 16 % 2 ^ 32 = lowHalf v <<< 16 := by
    rw [lowHalf, Nat.shiftLeft_eq, Nat.shiftLeft_eq]
    exact Nat.mul_mod_mul_right (2 ^ 16) v.toNat (2 ^ 16)
  have hor := Nat.shiftLeft_add_eq_or_of_lt (highHalf_lt v) (lowHalf v)
  rw [BitVec.toNat_rotateLeft]
  simp only [Nat.reduceMod, Nat.reduceSub, hlow, Nat.shiftRight_eq_div_pow]
  rw [← highHalf, ← hor, Nat.shiftLeft_eq, Nat.mul_comm]

theorem lowHalf_rotateLeft (v : Word) : lowHalf (v.rotateLeft 16) = highHalf v := by
  rw [lowHalf, toNat_rotateLeft_sixteen, Nat.mul_add_mod, Nat.mod_eq_of_lt (highHalf_lt v)]

theorem highHalf_rotateLeft (v : Word) : highHalf (v.rotateLeft 16) = lowHalf v := by
  rw [highHalf, toNat_rotateLeft_sixteen, Nat.mul_add_div (Nat.two_pow_pos 16), Nat.div_eq_of_lt (highHalf_lt v), Nat.add_zero]

/-- Settles O32: either exchange swaps two neighbouring words, which leaves the sum. -/
theorem wordSwapsAreNotDetected : Obligations.WordSwapsAreNotDetected := by
  unfold Obligations.WordSwapsAreNotDetected
  refine fun g => ⟨verify_congr ?_ rfl, verify_congr ?_ rfl⟩
  · simp only [checksumWords, List.sum_cons]
    omega
  · simp only [checksumWords, List.sum_cons, lowHalf_rotateLeft, highHalf_rotateLeft]
    omega

/-! ### The byte order -/

/-- `verify` in terms of sums: the words and the checksum field sum up to a multiple of `0xFFFF`, and of its two representatives of 0
the field holds `0xFFFF` exactly when all words are 0 (spec/41 R136). -/
theorem verify_iff_sum (g : Segment) :
    verify g = true ↔ ((checksumWords g).sum + g.csum.toNat) % 0xFFFF = 0 ∧ (g.csum.toNat = 0xFFFF ↔ (checksumWords g).sum = 0) := by
  have hcsum := g.csum.isLt
  have hlt := fold_fold_lt (checksumWords_sum_lt g)
  have hmod : fold (fold (checksumWords g).sum) % 65535 = (checksumWords g).sum % 65535 := by rw [fold_mod, fold_mod]
  have hzero : fold (fold (checksumWords g).sum) = 0 ↔ (checksumWords g).sum = 0 := fold_fold_eq_zero_iff
  rw [verify_iff, ← BitVec.toNat_inj, checksum_toNat]
  omega

/-- A word read in the other byte order is 256 times the word modulo `0xFFFF`, and 0 and `0xFFFF` are read the same. -/
theorem memRead_two_reversed (m : Memory) (a : Nat) :
    memRead .be m a 2 % 65535 = 256 * memRead .le m a 2 % 65535 ∧ (memRead .be m a 2 = 0 ↔ memRead .le m a 2 = 0) ∧
      (memRead .be m a 2 = 65535 ↔ memRead .le m a 2 = 65535) := by
  have hfirst := (Memory.read m a).isLt
  have hsecond := (Memory.read m (a + 1)).isLt
  rw [memRead_two_be, memRead_two_le]
  omega

theorem imageWord_reversed (m : Memory) (i : Nat) :
    imageWord .be m i % 65535 = 256 * imageWord .le m i % 65535 ∧ (imageWord .be m i = 0 ↔ imageWord .le m i = 0) := by
  obtain ⟨hmod, hzero, -⟩ := memRead_two_reversed m (2 * i)
  unfold imageWord
  split
  · exact ⟨rfl, Iff.rfl⟩
  · exact ⟨hmod, hzero⟩

theorem sum_map_reversed {f h : Nat → Nat} (hword : ∀ i, f i % 65535 = 256 * h i % 65535 ∧ (f i = 0 ↔ h i = 0)) (is : List Nat) :
    (is.map f).sum % 65535 = 256 * (is.map h).sum % 65535 ∧ ((is.map f).sum = 0 ↔ (is.map h).sum = 0) := by
  induction is with
  | nil => exact ⟨rfl, Iff.rfl⟩
  | cons i is ih =>
    have hi := hword i
    simp only [List.map_cons, List.sum_cons]
    omega

/-- Any 24 bytes are judged alike in either byte order: multiplication by 256 is a unit modulo `0xFFFF`. -/
theorem verify_unpack_reversed (m : Memory) : verify (unpack .be m) = verify (unpack .le m) := by
  obtain ⟨hcsumMod, -, hones⟩ := memRead_two_reversed m 16
  have hsum := sum_map_reversed (imageWord_reversed m) (List.range 12)
  rw [imageWords_sum, imageWords_sum] at hsum
  obtain ⟨hsumMod, hzero⟩ := hsum
  have hcsum (o : WireOrder) : (unpack o m).csum.toNat = memRead o m 16 2 := field16_toNat o m 16
  rw [Bool.eq_iff_iff, verify_iff_sum, verify_iff_sum, hcsum, hcsum, hones, hzero]
  refine and_congr_left' ?_
  omega

theorem verify_stamp (g : Segment) : verify (stamp g) = true := by rw [verify_iff, checksum_stamp, stamp_csum]

/-- Settles O33: the image of a stamped segment verifies in its own byte order, and so in the other one. -/
theorem byteOrderMismatchStillVerifies : Obligations.ByteOrderMismatchStillVerifies := by
  unfold Obligations.ByteOrderMismatchStillVerifies
  refine fun g => ⟨?_, ?_⟩
  · rw [verify_unpack_reversed, unpack_pack, verify_stamp]
  · rw [← verify_unpack_reversed, unpack_pack, verify_stamp]

end Sys2Proof.Machine
end

section
/-! PROOFS. Two open Initiators on one quiet channel (spec/70 R226): either receives the other's request, which acknowledges nothing, in
the place of a grant. The views are those of the Initiator of an open exchange, one `OpenRun` for each side. -/

namespace Sys2Proof.Machine

/-! ### Steps and runs of a pair -/

theorem pairStep_left {q : Pair} {t : State} (h : step q.left = .next t) : pairStep .left q = .next (relay ⟨t, q.right⟩) := by
  simp only [pairStep, h]

theorem pairStep_right {q : Pair} {t : State} (h : step q.right = .next t) : pairStep .right q = .next (relay ⟨q.left, t⟩) := by
  simp only [pairStep, h]

/-- A schedule that runs through is followed by the rest of the schedule. -/
theorem pairRun_append {ws : List Side} {q q' : Pair} (h : pairRun ws q = .next q') (vs : List Side) :
    pairRun (ws ++ vs) q = pairRun vs q' := by
  induction ws generalizing q with
  | nil =>
    cases h
    rfl
  | cons w ws ih =>
    rw [List.cons_append, pairRun]
    rw [pairRun] at h
    cases hs : pairStep w q with
    | next q₁ =>
      rw [hs] at h
      exact ih h
    | fault r | refused r =>
      rw [hs] at h
      cases h

theorem pairRun_two {w₁ w₂ : Side} {q q₁ q₂ : Pair} (h₁ : pairStep w₁ q = .next q₁) (h₂ : pairStep w₂ q₁ = .next q₂) :
    pairRun [w₁, w₂] q = .next q₂ := by
  simp only [pairRun, h₁, h₂]

/-- What the other side records as its failure is no matter of the channel. -/
theorem SideAt.link_raise {z peer : State} {v u : SideView} (h : SideAt z v) (hp : SideAt peer u) (k : ErrKind) (i : RaiseInfo) :
    SideAt (linkTo (raise k i peer) z) (v.link u) := by
  have hjoin : linkTo (raise k i peer) z = linkTo peer z := rfl
  rw [hjoin]
  exact h.link hp

/-! ### The requests cross -/

/-- A drawn number is below `0xFFFFFFF0`, so its successor does not wrap to 0 (spec/00 R9). -/
theorem isn_succ_ne_zero (n : Word) : isn decided n + 1#32 ≠ 0#32 := by
  have hn := isn_decided_toNat n
  bv_omega

/-- `OI.SendRequest` with segments already waiting: a send leaves them alone. -/
theorem moves_request_waiting (r : OpenRun) (gs : List Segment) :
    Moves { r.leftEntered with waiting := gs } { r.leftRequested with waiting := gs, sent := [r.request] } := by
  refine moves_send (e := .oiSendRequest) rfl rfl rfl fun z h => ?_
  have hnumber : isn decided (drawValue z) = r.leftNumber := h.number _ rfl
  rw [sendBuild_oiSendRequest_seg, (sendBuild_drawn rfl z).1, hnumber, h.localPort, h.peerPort]
  exact ⟨rfl, rfl⟩

/-- Both Initiators send their request before either receives. -/
theorem runs_requests (l r : OpenRun) :
    Runs [.left, .right] (l.leftEntered, r.leftEntered)
      ({ l.leftRequested with waiting := [r.request] }, { r.leftRequested with waiting := [l.request] }) :=
  .left (moves_request l) <| .right (moves_request_waiting r [l.request]) <| .nil _

/-! ### The failure -/

/-- The failure of `OI.AwaitGrant` on a segment that acknowledges nothing. -/
def FailedUnacknowledged (z : State) : Prop :=
  z.status.run = .failed ∧ z.err.kind = .acknowledgmentMismatch ∧ z.err.stepIx = .s1 ∧ z.err.observed = 0#32

/-- The relay writes no register. -/
theorem FailedUnacknowledged.linkTo {z : State} (h : FailedUnacknowledged z) (peer : State) : FailedUnacknowledged (linkTo peer z) := h

theorem request_ack (r : OpenRun) : r.request.ack = 0#32 := stamp_ack _

/-- An Initiator that finds the other's request where it awaits a grant fails at the acknowledgment, from a state `y` on the same
well-behaved channel. -/
theorem step_unacknowledged {l r : OpenRun} {z : State} {n : Word} (hn : l.leftNumber = isn decided n)
    (h : SideAt z { l.leftRequested with waiting := [r.request] }) :
    ∃ i y, step z = .next (raise .acknowledgmentMismatch i y) ∧ FailedUnacknowledged (raise .acknowledgmentMismatch i y) ∧
      SideAt y { l.leftRequested with seg := r.request, records := l.leftRecords + 2 } := by
  obtain ⟨-, -, hy⟩ := h.latched rfl
  have hstep := h.step_receive (e := .oiAwaitGrant) rfl rfl rfl rfl
  generalize latched z (Memory.bytes (pack .le r.request)) = y at hy hstep
  have hack : y.seg.ack = 0#32 := hy.seg ▸ request_ack r
  have hlocal : y.localSeq = isn decided n := hy.localSeq.trans hn
  have hne : y.seg.ack ≠ y.localSeq + 1#32 := by
    rw [hack, hlocal]
    exact (isn_succ_ne_zero n).symm
  rw [recvChecks, requireAck_fail _ hne] at hstep
  exact ⟨_, y, hstep, ⟨rfl, rfl, hy.stepIx, hack⟩, hy⟩

/-- Two sides entered as Initiators on a quiet channel. -/
theorem pairAt_twoInitiators {x y x' y' : State} {a b c d : Half} (hx : Quiet x) (hy : Quiet y) (hxn : x.status.run ≠ .busy)
    (hyn : y.status.run ≠ .busy) (hxe : exec (.openI a b) x = .next x') (hye : exec (.openI c d) y = .next y') :
    PairAt ⟨x', y'⟩ ((openRun x y a b c d).leftEntered, (openRun y x c d a b).leftEntered) := by
  cases hxe.symm.trans (exec_openI a b hxn)
  cases hye.symm.trans (exec_openI c d hyn)
  exact ⟨.entered hx .openEx .initiator a b, .entered hy .openEx .initiator c d⟩

/-- Settles O59: once both requests are out, either side's next step is the failure of `step_unacknowledged`. -/
theorem twoOpenInitiatorsBothFail : Obligations.TwoOpenInitiatorsBothFail := by
  unfold Obligations.TwoOpenInitiatorsBothFail
  intro x y x' y' a b c d hx hy hxn hyn hxe hye
  obtain ⟨q, hrun, hl, hr⟩ := runs_requests _ _ _ (pairAt_twoInitiators hx hy hxn hyn hxe hye)
  obtain ⟨i, tl, hleft, hlf, htl⟩ := step_unacknowledged rfl hl
  obtain ⟨j, tr, hright, hrf, -⟩ := step_unacknowledged rfl (hr.link_raise htl .acknowledgmentMismatch i)
  refine ⟨_, (pairRun_append hrun _).trans (pairRun_two (pairStep_left hleft) (pairStep_right hright)), ?_⟩
  obtain ⟨hlrun, hlkind, hlstep, hlobserved⟩ := (hlf.linkTo _).linkTo _
  obtain ⟨hrrun, hrkind, hrstep, hrobserved⟩ := hrf.linkTo _
  exact ⟨hlrun, hlkind, hlstep, hlobserved, hrrun, hrkind, hrstep, hrobserved⟩

end Sys2Proof.Machine
end

section
/-! PROOFS. A segment kind as an instruction (spec/30 R87): at a send step that builds it, it is that step, and elsewhere it is refused
(spec/30 R97 (c)); a blocked step, whether a step of the block itself or a segment kind (spec/70 R225). -/

namespace Sys2Proof.Machine

/-- At a send step that builds it, a segment kind is that step: a turn of the block there fetches the kind's word. -/
theorem exec_builtKind {s : State} {e : ExStep} {i : Instr} {w : Half} (ha : activeStep s = some e) (hw : builtControl e = some w)
    (hi : encode i = .ctrl w) : exec i s = .next (ownStep decided e s) := by
  have hd : decode (.ctrl w) = .ok i := hi ▸ decodeEncodeRoundTrip i
  have hf : fetch (withInputs s (.advance :: s.env.inputs)) = fetchOwn s := fetch_turn (.inr ⟨_, rfl, rfl⟩)
  exact (step_of_word (hf.trans (fetchOwn_send ha hw)) hd).symm.trans (step_of_own hf ha)

/-- Settles O40: each kind asks in turn for the steps that build it, and the instance stands at none of them. -/
theorem segmentKindElsewhereIsRefused : Obligations.SegmentKindElsewhereIsRefused := by
  unfold Obligations.SegmentKindElsewhereIsRefused
  intro s i w hi hn
  have elsewhere {e : ExStep} (hw : builtControl e = some w) : activeStep s ≠ some e := fun ha => hn e ha hw
  cases i <;> cases hi
  case segSyn => exact if_neg (elsewhere rfl)
  case segSynAck => exact if_neg (elsewhere rfl)
  case segAck => exact (if_neg (elsewhere rfl)).trans <| (if_neg (elsewhere rfl)).trans <| if_neg (elsewhere rfl)
  case segFin => exact (if_neg (elsewhere rfl)).trans <| if_neg (elsewhere rfl)

theorem stepBlocked_receive {s : State} {e : ExStep} (hw : builtControl e = none) (hlen : s.env.rxq.length < 24)
    (hdown : s.env.rxDown = false) : stepBlocked e s = true := by
  simp [stepBlocked, recvBlocked, hw, hlen, hdown]

theorem stepBlocked_send {s : State} {e : ExStep} {w : Half} (hw : builtControl e = some w) (hstall : s.env.txStalled = true)
    (hdown : s.env.txDown = false) : stepBlocked e s = true := by
  simp [stepBlocked, sendBlocked, hw, hstall, hdown]

theorem step_blocked {u s : State} {e : ExStep} (ht : OwnTurn u s) (ha : activeStep s = some e) (hb : stepBlocked e s = true) :
    step u = .next s := by
  rw [step_turn ht ha, ownStep_blocked decided hb]

theorem exec_blocked {s : State} {e : ExStep} {i : Instr} {w : Half} (ha : activeStep s = some e) (hw : builtControl e = some w)
    (hi : encode i = .ctrl w) (hb : stepBlocked e s = true) : exec i s = .next s := by
  rw [exec_builtKind ha hw hi, ownStep_blocked decided hb]

/-- Settles O42: in each clause the step at hand is blocked, and a segment kind is the send step that builds it. -/
theorem blockedStepChangesNothing : Obligations.BlockedStepChangesNothing := by
  unfold Obligations.BlockedStepChangesNothing
  refine ⟨?_, ?_, ?_⟩
  · intro u s e ht ha hw hlen hdown
    exact step_blocked ht ha (stepBlocked_receive hw hlen hdown)
  · intro u s e w ht ha hw hstall hdown
    exact step_blocked ht ha (stepBlocked_send hw hstall hdown)
  · intro s e i w ha hw hi hstall hdown
    exact exec_blocked ha hw hi (stepBlocked_send hw hstall hdown)

end Sys2Proof.Machine
end
